-- ==== Sys2Proof/Word.lean ====
section
/-! DEFINITION. The machine's word types. Nothing here carries a rule of its own: the readings and encodings of
00_scope.md R10 to R12 are in Machine/Operands.lean, the field extraction of R92 in Decode.lean. -/

namespace Sys2Proof

/-- A byte of DMEM (20_memory.md R70). -/
abbrev Byte := BitVec 8

/-- A 16-bit word: a scalar register, the program counter, a DMEM address, an immediate (10_state.md R36, R43). -/
abbrev Half := BitVec 16

/-- A 32-bit word: an instruction, an IMEM word, a host bus word (20_memory.md R76, R80). -/
abbrev Word := BitVec 32

/-- The storage of one wide register. The widest legal register has 128 bits (00_scope.md R7: `16 <= N*LB <= 128`);
at a smaller `W` the low `W` bits are the register and the others are 0 (log 2). -/
abbrev Wide := BitVec 128

/-- A wide register's number, 0 to 7 (10_state.md R30). -/
abbrev WReg := Fin 8

/-- A scalar register's number, 0 to 7 (10_state.md R36). -/
abbrev SReg := Fin 8

end Sys2Proof
end

