-- ==== Sys2Proof/Config.lean ====
section
/-! DEFINITION. What an implementation fixes: the parameters of 00_scope.md R7, and the values the spec leaves free
(memory contents after power-on, the window's base address). -/

namespace Sys2Proof

/-- The implementation parameters of 00_scope.md R7, under the spec's names. They are data, so that one model serves
every configuration (R8; log 1). -/
structure Params where
  /-- bits per limb -/
  LB : Nat
  /-- limbs per wide register -/
  N : Nat
  /-- the scale factor's width in limbs -/
  SL : Nat
  /-- the Newton-Raphson iteration budget (`SQRT_ITERS`) -/
  sqrtIters : Nat
  /-- the instruction memory's size in 32-bit words (`IMEM_WORDS`) -/
  imemWords : Nat
  /-- the data memory's size in bytes (`DMEM_BYTES`) -/
  dmemBytes : Nat
deriving DecidableEq, Repr

/-- `RADIX = 2^LB` (R7). -/
def Params.radix (p : Params) : Nat := 2 ^ p.LB

/-- `W = N*LB`, the bits of a wide register (R7). -/
def Params.W (p : Params) : Nat := p.N * p.LB

/-- `FB = LB*SL`, the fraction bits of a fixed-point value (R7). -/
def Params.FB (p : Params) : Nat := p.LB * p.SL

/-- `W/8`, the bytes a wide value occupies (20_memory.md R74). -/
def Params.wideBytes (p : Params) : Nat := p.W / 8

/-- The reference parameters of R7: LB = 8, N = 4, SL = 2, SQRT_ITERS = 16, IMEM_WORDS = 1024, DMEM_BYTES = 4096. -/
def Params.reference : Params :=
  { LB := 8, N := 4, SL := 2, sqrtIters := 16, imemWords := 1024, dmemBytes := 4096 }

/-- What IMEM word `k` holds after power-on, until it is written: any value (70_reset_and_hazards.md R360;
93_implementation_defined.md I7). A free value, with no body (log 3). -/
opaque Config.powerOnWord : Nat → Word

/-- What DMEM byte `a` holds after power-on, until it is written: any value (R360; I8). A free value, with no body (log 3). -/
opaque Config.powerOnByte : Nat → Byte

/-- `ENGINE_BASE`, the host address of window offset 0: the platform's, and no rule depends on it
(60_exceptions.md R344; 92_eei_decisions.md D48; I6). -/
opaque Config.engineBase : Nat

end Sys2Proof
end

