-- ==== Sys2Proof/Syntax.lean ====
section
/-! DEFINITION. The instructions: one constructor per row of spec/opcode_table.json (30_encoding.md R98), its operands in
the assembler's order d, a, b, immediate (R102). A field that a row does not use has no operand here. -/

namespace Sys2Proof

/-- One instruction of the LVWE (30_encoding.md R98). -/
inductive Instr where
  /-- HALT, R296: end the run. -/
  | halt
  /-- NOP, R297: no operation. -/
  | nop
  /-- BRK, R298: breakpoint with a 16-bit code. -/
  | brk (code : Half)
  /-- ADD, R150: wrapping addition. -/
  | add (d a b : WReg)
  /-- SUB, R151: wrapping subtraction. -/
  | sub (d a b : WReg)
  /-- NEG, R127: two's-complement negation. -/
  | neg (d a : WReg)
  /-- ABS, R128: absolute value. -/
  | abs (d a : WReg)
  /-- MUL, R172: signed integer multiply. -/
  | mul (d a b : WReg)
  /-- DIV, R192: signed integer divide, truncating. -/
  | div (d a b : WReg)
  /-- ISQRT, R212: integer square root. -/
  | isqrt (d a : WReg)
  /-- FMUL, R173: signed fixed-point multiply. -/
  | fmul (d a b : WReg)
  /-- FDIV, R193: signed fixed-point divide. -/
  | fdiv (d a b : WReg)
  /-- FSQRT, R213: fixed-point square root. -/
  | fsqrt (d a : WReg)
  /-- CMP, R152: three-way signed compare. -/
  | cmp (a b : WReg)
  /-- TST, R129: test sign and zero. -/
  | tst (a : WReg)
  /-- MOV, R124: copy a wide register. -/
  | mov (d a : WReg)
  /-- LDI, R125: load a sign-extended immediate. -/
  | ldi (d : WReg) (simm : Half)
  /-- SETL, R126: set one limb from a raw value. -/
  | setl (d : WReg) (idx val : Byte)
  /-- WFROMS, R123: wide register from a scalar register. -/
  | wfroms (d : WReg) (a : SReg)
  /-- LSHL, R231: limb shift left. -/
  | lshl (d a : WReg) (k : Half)
  /-- LSHR, R232: logical limb shift right. -/
  | lshr (d a : WReg) (k : Half)
  /-- LSRA, R233: arithmetic limb shift right. -/
  | lsra (d a : WReg) (k : Half)
  /-- SHL, R130: left shift by bits. -/
  | shl (d a : WReg) (count : Half)
  /-- ASR, R131: arithmetic right shift by bits. -/
  | asr (d a : WReg) (count : Half)
  /-- LDW, R271: load a wide register. -/
  | ldw (d : WReg) (a : SReg) (simm : Half)
  /-- STW, R272: store a wide register (`d` is the register stored). -/
  | stw (d : WReg) (a : SReg) (simm : Half)
  /-- LDS, R273: load a scalar register. -/
  | lds (d a : SReg) (simm : Half)
  /-- STS, R274: store a scalar register (`d` is the register stored). -/
  | sts (d a : SReg) (simm : Half)
  /-- SLI, R250: load a 16-bit immediate. -/
  | sli (d : SReg) (imm : Half)
  /-- SADDI, R251: add a signed immediate. -/
  | saddi (d a : SReg) (simm : Half)
  /-- SADD, R252: scalar add. -/
  | sadd (d a b : SReg)
  /-- SSUB, R253: scalar subtract. -/
  | ssub (d a b : SReg)
  /-- SSHL, R254: 16-bit left shift. -/
  | sshl (d a : SReg) (count : Half)
  /-- SASR, R255: 16-bit arithmetic right shift. -/
  | sasr (d a : SReg) (count : Half)
  /-- STST, R256: test a scalar register. -/
  | stst (a : SReg)
  /-- SCMP, R257: signed scalar compare. -/
  | scmp (a b : SReg)
  /-- BRA, R290: unconditional branch. -/
  | bra (simm : Half)
  /-- BEQ, R292: branch if Z = 1. -/
  | beq (simm : Half)
  /-- BNE, R292: branch if Z = 0. -/
  | bne (simm : Half)
  /-- BLT, R292: branch if N = 1. -/
  | blt (simm : Half)
  /-- BGE, R292: branch if N = 0. -/
  | bge (simm : Half)
  /-- BGT, R292: branch if Z = 0 and N = 0. -/
  | bgt (simm : Half)
  /-- BLE, R292: branch if Z = 1 or N = 1. -/
  | ble (simm : Half)
  /-- JAL, R293: jump and link. -/
  | jal (d : SReg) (simm : Half)
  /-- JR, R294: jump to a register. -/
  | jr (a : SReg)
deriving DecidableEq, Repr

end Sys2Proof
end

