-- ==== Sys2Proof/WellFormed.lean ====
section
/-! DEFINITION. What is well formed: the parameters' legal values (00_scope.md R7), and the one condition on an
instruction that its operand types do not carry (SETL's limb index, 30_encoding.md R99). -/

namespace Sys2Proof

/-- The constraints of R7 on the limb width and the limb count: `LB` is 4 or 8, `N >= 2`, `16 <= N*LB <= 128`, and `N*LB` is a
multiple of 8. A 30-bit width fails here (90_conflicts.md C7, 93_implementation_defined.md I2). -/
def Params.widthLegal (p : Params) : Bool :=
  (p.LB == 4 || p.LB == 8) && decide (2 ≤ p.N) && decide (16 ≤ p.N * p.LB) && decide (p.N * p.LB ≤ 128)
    && p.N * p.LB % 8 == 0

/-- The constraints of R7 on the other parameters: `0 <= SL < N`, `1 <= SQRT_ITERS <= 255`, `1 <= IMEM_WORDS <= 65536`,
`4 <= DMEM_BYTES <= 65536` and a multiple of 4. -/
def Params.sizesLegal (p : Params) : Bool :=
  decide (p.SL < p.N) && decide (1 ≤ p.sqrtIters) && decide (p.sqrtIters ≤ 255)
    && decide (1 ≤ p.imemWords) && decide (p.imemWords ≤ 65536)
    && decide (4 ≤ p.dmemBytes) && decide (p.dmemBytes ≤ 65536) && p.dmemBytes % 4 == 0

/-- The parameters are legal values of R7. -/
def Params.legal (p : Params) : Bool := p.widthLegal && p.sizesLegal

/-- An instruction of an engine with `N` limbs is well formed: SETL's limb index is below `N` (R99 case 3). Every other
operand value is legal (R96: no count and no immediate is illegal). -/
def Instr.wellFormed (N : Nat) : Instr → Bool
  | .setl _ idx _ => decide (idx.toNat < N)
  | _ => true

end Sys2Proof
end

