-- ==== Sys2Proof/Decode.lean ====
section
/-! DEFINITION. Decoding and encoding an instruction word (30_encoding.md R90 to R101), and the opcode table of R98. -/

namespace Sys2Proof

/-- `w[hi:lo]`, the field of bits `hi` down to `lo` read as an unsigned number (00_scope.md R9). -/
def bits (w : Word) (hi lo : Nat) : Nat := w.toNat / 2 ^ lo % 2 ^ (hi + 1 - lo)

/-- `op = w[31:26]` (R92). -/
def fieldOp (w : Word) : Nat := bits w 31 26

/-- A 3-bit register field whose lowest bit is bit `lo` of the word (R92). -/
def regField (w : Word) (lo : Nat) : Fin 8 := ⟨w.toNat / 2 ^ lo % 8, Nat.mod_lt _ (by decide)⟩

/-- `d = w[25:23]` (R92). -/
def fieldD (w : Word) : Fin 8 := regField w 23

/-- `a = w[22:20]` (R92). -/
def fieldA (w : Word) : Fin 8 := regField w 20

/-- `b = w[19:17]` (R92). -/
def fieldB (w : Word) : Fin 8 := regField w 17

/-- `imm = w[15:0]` (R92). -/
def fieldImm (w : Word) : Half := BitVec.ofNat 16 (bits w 15 0)

/-- `idx = imm[15:8]`, SETL's limb index (R96). -/
def fieldIdx (w : Word) : Byte := BitVec.ofNat 8 (bits w 15 8)

/-- `val = imm[7:0]`, SETL's limb value (R96). -/
def fieldVal (w : Word) : Byte := BitVec.ofNat 8 (bits w 7 0)

/-- Why a word is illegal: the three cases of R99. All three raise ILLEGAL with FAULT_INFO = the word. -/
inductive Illegal where
  /-- R99 case 1: the opcode is not in R98. -/
  | reservedOpcode
  /-- R99 case 2: a reserved bit or an unused field is not 0 (R93 to R95). -/
  | nonzeroField
  /-- R99 case 3: SETL with `idx >= N`. -/
  | limbIndex
deriving DecidableEq, Repr

/-- The instruction `i`, provided that every field listed (its `hi` and `lo` bits) is 0 in `w` (R93 to R95). -/
def withZeros (w : Word) (fields : List (Nat × Nat)) (i : Instr) : Except Illegal Instr :=
  if fields.all (fun f => bits w f.1 f.2 == 0) then .ok i else .error .nonzeroField

/-- Decoding by opcode and required zeros: the cases 1 and 2 of R99. Each arm is a row of R98. -/
def decodeFields (w : Word) : Except Illegal Instr :=
  match fieldOp w with
  | 0x01 => withZeros w [(25, 0)] .halt
  | 0x02 => withZeros w [(25, 0)] .nop
  | 0x03 => withZeros w [(25, 16)] (.brk (fieldImm w))
  | 0x04 => withZeros w [(16, 0)] (.add (fieldD w) (fieldA w) (fieldB w))
  | 0x05 => withZeros w [(16, 0)] (.sub (fieldD w) (fieldA w) (fieldB w))
  | 0x06 => withZeros w [(19, 0)] (.neg (fieldD w) (fieldA w))
  | 0x07 => withZeros w [(19, 0)] (.abs (fieldD w) (fieldA w))
  | 0x08 => withZeros w [(16, 0)] (.mul (fieldD w) (fieldA w) (fieldB w))
  | 0x09 => withZeros w [(16, 0)] (.div (fieldD w) (fieldA w) (fieldB w))
  | 0x0A => withZeros w [(19, 0)] (.isqrt (fieldD w) (fieldA w))
  | 0x0B => withZeros w [(16, 0)] (.fmul (fieldD w) (fieldA w) (fieldB w))
  | 0x0C => withZeros w [(16, 0)] (.fdiv (fieldD w) (fieldA w) (fieldB w))
  | 0x0D => withZeros w [(19, 0)] (.fsqrt (fieldD w) (fieldA w))
  | 0x0E => withZeros w [(25, 23), (16, 0)] (.cmp (fieldA w) (fieldB w))
  | 0x0F => withZeros w [(25, 23), (19, 0)] (.tst (fieldA w))
  | 0x10 => withZeros w [(19, 0)] (.mov (fieldD w) (fieldA w))
  | 0x11 => withZeros w [(22, 16)] (.ldi (fieldD w) (fieldImm w))
  | 0x12 => withZeros w [(22, 16)] (.setl (fieldD w) (fieldIdx w) (fieldVal w))
  | 0x13 => withZeros w [(19, 0)] (.wfroms (fieldD w) (fieldA w))
  | 0x14 => withZeros w [(19, 16)] (.lshl (fieldD w) (fieldA w) (fieldImm w))
  | 0x15 => withZeros w [(19, 16)] (.lshr (fieldD w) (fieldA w) (fieldImm w))
  | 0x16 => withZeros w [(19, 16)] (.lsra (fieldD w) (fieldA w) (fieldImm w))
  | 0x17 => withZeros w [(19, 16)] (.shl (fieldD w) (fieldA w) (fieldImm w))
  | 0x18 => withZeros w [(19, 16)] (.asr (fieldD w) (fieldA w) (fieldImm w))
  | 0x20 => withZeros w [(19, 16)] (.ldw (fieldD w) (fieldA w) (fieldImm w))
  | 0x21 => withZeros w [(19, 16)] (.stw (fieldD w) (fieldA w) (fieldImm w))
  | 0x22 => withZeros w [(19, 16)] (.lds (fieldD w) (fieldA w) (fieldImm w))
  | 0x23 => withZeros w [(19, 16)] (.sts (fieldD w) (fieldA w) (fieldImm w))
  | 0x28 => withZeros w [(22, 16)] (.sli (fieldD w) (fieldImm w))
  | 0x29 => withZeros w [(19, 16)] (.saddi (fieldD w) (fieldA w) (fieldImm w))
  | 0x2A => withZeros w [(16, 0)] (.sadd (fieldD w) (fieldA w) (fieldB w))
  | 0x2B => withZeros w [(16, 0)] (.ssub (fieldD w) (fieldA w) (fieldB w))
  | 0x2C => withZeros w [(19, 16)] (.sshl (fieldD w) (fieldA w) (fieldImm w))
  | 0x2D => withZeros w [(19, 16)] (.sasr (fieldD w) (fieldA w) (fieldImm w))
  | 0x2E => withZeros w [(25, 23), (19, 0)] (.stst (fieldA w))
  | 0x2F => withZeros w [(25, 23), (16, 0)] (.scmp (fieldA w) (fieldB w))
  | 0x30 => withZeros w [(25, 16)] (.bra (fieldImm w))
  | 0x31 => withZeros w [(25, 16)] (.beq (fieldImm w))
  | 0x32 => withZeros w [(25, 16)] (.bne (fieldImm w))
  | 0x33 => withZeros w [(25, 16)] (.blt (fieldImm w))
  | 0x34 => withZeros w [(25, 16)] (.bge (fieldImm w))
  | 0x35 => withZeros w [(25, 16)] (.bgt (fieldImm w))
  | 0x36 => withZeros w [(25, 16)] (.ble (fieldImm w))
  | 0x37 => withZeros w [(22, 16)] (.jal (fieldD w) (fieldImm w))
  | 0x38 => withZeros w [(25, 23), (19, 0)] (.jr (fieldA w))
  | _ => .error .reservedOpcode

/-- The decoder of R99 and R104 for an engine with `N` limbs: total on every 32-bit word, rejecting each illegal word by the
name of its case. SETL's index check is part of decoding (60_exceptions.md R335). -/
def decode (N : Nat) (w : Word) : Except Illegal Instr :=
  match decodeFields w with
  | .ok i => if i.wellFormed N then .ok i else .error .limbIndex
  | .error e => .error e

/-- A word from its fields, in the layout of R91. -/
def fieldsWord (op d a b imm : Nat) : Word :=
  BitVec.ofNat 32 (2 ^ 26 * op + 2 ^ 23 * d + 2 ^ 20 * a + 2 ^ 17 * b + imm)

/-- The instruction's word (R91, R98). -/
def encode : Instr → Word
  | .halt => fieldsWord 0x01 0 0 0 0
  | .nop => fieldsWord 0x02 0 0 0 0
  | .brk imm => fieldsWord 0x03 0 0 0 imm.toNat
  | .add d a b => fieldsWord 0x04 d a b 0
  | .sub d a b => fieldsWord 0x05 d a b 0
  | .neg d a => fieldsWord 0x06 d a 0 0
  | .abs d a => fieldsWord 0x07 d a 0 0
  | .mul d a b => fieldsWord 0x08 d a b 0
  | .div d a b => fieldsWord 0x09 d a b 0
  | .isqrt d a => fieldsWord 0x0A d a 0 0
  | .fmul d a b => fieldsWord 0x0B d a b 0
  | .fdiv d a b => fieldsWord 0x0C d a b 0
  | .fsqrt d a => fieldsWord 0x0D d a 0 0
  | .cmp a b => fieldsWord 0x0E 0 a b 0
  | .tst a => fieldsWord 0x0F 0 a 0 0
  | .mov d a => fieldsWord 0x10 d a 0 0
  | .ldi d imm => fieldsWord 0x11 d 0 0 imm.toNat
  | .setl d idx val => fieldsWord 0x12 d 0 0 (2 ^ 8 * idx.toNat + val.toNat)
  | .wfroms d a => fieldsWord 0x13 d a 0 0
  | .lshl d a imm => fieldsWord 0x14 d a 0 imm.toNat
  | .lshr d a imm => fieldsWord 0x15 d a 0 imm.toNat
  | .lsra d a imm => fieldsWord 0x16 d a 0 imm.toNat
  | .shl d a imm => fieldsWord 0x17 d a 0 imm.toNat
  | .asr d a imm => fieldsWord 0x18 d a 0 imm.toNat
  | .ldw d a imm => fieldsWord 0x20 d a 0 imm.toNat
  | .stw d a imm => fieldsWord 0x21 d a 0 imm.toNat
  | .lds d a imm => fieldsWord 0x22 d a 0 imm.toNat
  | .sts d a imm => fieldsWord 0x23 d a 0 imm.toNat
  | .sli d imm => fieldsWord 0x28 d 0 0 imm.toNat
  | .saddi d a imm => fieldsWord 0x29 d a 0 imm.toNat
  | .sadd d a b => fieldsWord 0x2A d a b 0
  | .ssub d a b => fieldsWord 0x2B d a b 0
  | .sshl d a imm => fieldsWord 0x2C d a 0 imm.toNat
  | .sasr d a imm => fieldsWord 0x2D d a 0 imm.toNat
  | .stst a => fieldsWord 0x2E 0 a 0 0
  | .scmp a b => fieldsWord 0x2F 0 a b 0
  | .bra imm => fieldsWord 0x30 0 0 0 imm.toNat
  | .beq imm => fieldsWord 0x31 0 0 0 imm.toNat
  | .bne imm => fieldsWord 0x32 0 0 0 imm.toNat
  | .blt imm => fieldsWord 0x33 0 0 0 imm.toNat
  | .bge imm => fieldsWord 0x34 0 0 0 imm.toNat
  | .bgt imm => fieldsWord 0x35 0 0 0 imm.toNat
  | .ble imm => fieldsWord 0x36 0 0 0 imm.toNat
  | .jal d imm => fieldsWord 0x37 d 0 0 imm.toNat
  | .jr a => fieldsWord 0x38 0 a 0 0

/-- The instruction's mnemonic, as R98 and spec/opcode_table.json write it. -/
def Instr.mnemonic : Instr → String
  | .halt => "HALT"
  | .nop => "NOP"
  | .brk _ => "BRK"
  | .add _ _ _ => "ADD"
  | .sub _ _ _ => "SUB"
  | .neg _ _ => "NEG"
  | .abs _ _ => "ABS"
  | .mul _ _ _ => "MUL"
  | .div _ _ _ => "DIV"
  | .isqrt _ _ => "ISQRT"
  | .fmul _ _ _ => "FMUL"
  | .fdiv _ _ _ => "FDIV"
  | .fsqrt _ _ => "FSQRT"
  | .cmp _ _ => "CMP"
  | .tst _ => "TST"
  | .mov _ _ => "MOV"
  | .ldi _ _ => "LDI"
  | .setl _ _ _ => "SETL"
  | .wfroms _ _ => "WFROMS"
  | .lshl _ _ _ => "LSHL"
  | .lshr _ _ _ => "LSHR"
  | .lsra _ _ _ => "LSRA"
  | .shl _ _ _ => "SHL"
  | .asr _ _ _ => "ASR"
  | .ldw _ _ _ => "LDW"
  | .stw _ _ _ => "STW"
  | .lds _ _ _ => "LDS"
  | .sts _ _ _ => "STS"
  | .sli _ _ => "SLI"
  | .saddi _ _ _ => "SADDI"
  | .sadd _ _ _ => "SADD"
  | .ssub _ _ _ => "SSUB"
  | .sshl _ _ _ => "SSHL"
  | .sasr _ _ _ => "SASR"
  | .stst _ => "STST"
  | .scmp _ _ => "SCMP"
  | .bra _ => "BRA"
  | .beq _ => "BEQ"
  | .bne _ => "BNE"
  | .blt _ => "BLT"
  | .bge _ => "BGE"
  | .bgt _ => "BGT"
  | .ble _ => "BLE"
  | .jal _ _ => "JAL"
  | .jr _ => "JR"

/-- A row of the opcode map (R98): a word spells the instruction exactly when `(w & mask) == pattern`, but for SETL's further
check on `idx`. The spec calls the pattern `match`. -/
structure OpcodeRow where
  mnemonic : String
  pattern : Word
  mask : Word
deriving DecidableEq, Repr

/-- The word agrees with the row (R98). -/
def OpcodeRow.spells (r : OpcodeRow) (w : Word) : Bool := w &&& r.mask == r.pattern

/-- System: opcodes 0x01 to 0x03. -/
def systemRows : List OpcodeRow :=
  [ ⟨"HALT", 0x04000000#32, 0xFFFFFFFF#32⟩,
    ⟨"NOP", 0x08000000#32, 0xFFFFFFFF#32⟩,
    ⟨"BRK", 0x0C000000#32, 0xFFFF0000#32⟩ ]

/-- Wide arithmetic: opcodes 0x04 to 0x18. -/
def wideRows : List OpcodeRow :=
  [ ⟨"ADD", 0x10000000#32, 0xFC01FFFF#32⟩,
    ⟨"SUB", 0x14000000#32, 0xFC01FFFF#32⟩,
    ⟨"NEG", 0x18000000#32, 0xFC0FFFFF#32⟩,
    ⟨"ABS", 0x1C000000#32, 0xFC0FFFFF#32⟩,
    ⟨"MUL", 0x20000000#32, 0xFC01FFFF#32⟩,
    ⟨"DIV", 0x24000000#32, 0xFC01FFFF#32⟩,
    ⟨"ISQRT", 0x28000000#32, 0xFC0FFFFF#32⟩,
    ⟨"FMUL", 0x2C000000#32, 0xFC01FFFF#32⟩,
    ⟨"FDIV", 0x30000000#32, 0xFC01FFFF#32⟩,
    ⟨"FSQRT", 0x34000000#32, 0xFC0FFFFF#32⟩,
    ⟨"CMP", 0x38000000#32, 0xFF81FFFF#32⟩,
    ⟨"TST", 0x3C000000#32, 0xFF8FFFFF#32⟩,
    ⟨"MOV", 0x40000000#32, 0xFC0FFFFF#32⟩,
    ⟨"LDI", 0x44000000#32, 0xFC7F0000#32⟩,
    ⟨"SETL", 0x48000000#32, 0xFC7F0000#32⟩,
    ⟨"WFROMS", 0x4C000000#32, 0xFC0FFFFF#32⟩,
    ⟨"LSHL", 0x50000000#32, 0xFC0F0000#32⟩,
    ⟨"LSHR", 0x54000000#32, 0xFC0F0000#32⟩,
    ⟨"LSRA", 0x58000000#32, 0xFC0F0000#32⟩,
    ⟨"SHL", 0x5C000000#32, 0xFC0F0000#32⟩,
    ⟨"ASR", 0x60000000#32, 0xFC0F0000#32⟩ ]

/-- Memory: opcodes 0x20 to 0x23. -/
def memoryRows : List OpcodeRow :=
  [ ⟨"LDW", 0x80000000#32, 0xFC0F0000#32⟩,
    ⟨"STW", 0x84000000#32, 0xFC0F0000#32⟩,
    ⟨"LDS", 0x88000000#32, 0xFC0F0000#32⟩,
    ⟨"STS", 0x8C000000#32, 0xFC0F0000#32⟩ ]

/-- Scalar: opcodes 0x28 to 0x2F. -/
def scalarRows : List OpcodeRow :=
  [ ⟨"SLI", 0xA0000000#32, 0xFC7F0000#32⟩,
    ⟨"SADDI", 0xA4000000#32, 0xFC0F0000#32⟩,
    ⟨"SADD", 0xA8000000#32, 0xFC01FFFF#32⟩,
    ⟨"SSUB", 0xAC000000#32, 0xFC01FFFF#32⟩,
    ⟨"SSHL", 0xB0000000#32, 0xFC0F0000#32⟩,
    ⟨"SASR", 0xB4000000#32, 0xFC0F0000#32⟩,
    ⟨"STST", 0xB8000000#32, 0xFF8FFFFF#32⟩,
    ⟨"SCMP", 0xBC000000#32, 0xFF81FFFF#32⟩ ]

/-- Control: opcodes 0x30 to 0x38. -/
def controlRows : List OpcodeRow :=
  [ ⟨"BRA", 0xC0000000#32, 0xFFFF0000#32⟩,
    ⟨"BEQ", 0xC4000000#32, 0xFFFF0000#32⟩,
    ⟨"BNE", 0xC8000000#32, 0xFFFF0000#32⟩,
    ⟨"BLT", 0xCC000000#32, 0xFFFF0000#32⟩,
    ⟨"BGE", 0xD0000000#32, 0xFFFF0000#32⟩,
    ⟨"BGT", 0xD4000000#32, 0xFFFF0000#32⟩,
    ⟨"BLE", 0xD8000000#32, 0xFFFF0000#32⟩,
    ⟨"JAL", 0xDC000000#32, 0xFC7F0000#32⟩,
    ⟨"JR", 0xE0000000#32, 0xFF8FFFFF#32⟩ ]

/-- The complete opcode map (R98), in the order of spec/opcode_table.json. -/
def opcodeTable : List OpcodeRow := systemRows ++ wideRows ++ memoryRows ++ scalarRows ++ controlRows

/-- What the decoder reads from an instruction of `nbits` bits, numbered as spec/opcode_table.json numbers them (every
instruction is one 32-bit word, R90), at the reference parameters. Bits above `nbits` are 0. -/
def decodeTableWord (nbits w : Nat) : Option Instr :=
  match decode Params.reference.N (BitVec.ofNat 32 (w % 2 ^ nbits)) with
  | .ok i => some i
  | .error _ => none

end Sys2Proof
end

