-- ==== Sys2Proof/Machine/State.lean ====
section
/-! DEFINITION. The machine's state: everything 10_state.md, 20_memory.md and 60_exceptions.md give the engine and its host
register block, and the two fields of the model's own (`hostQueue`, `busData`). INVENTORY.md lists each with its rule. -/

namespace Sys2Proof.Machine

/-- What stops the machine with no next state. The spec's own faults (60_exceptions.md R320 to R323) are NOT here: each leaves a
state the host reads and runs on from, so each is a next state (`State.raiseFault`). -/
inductive Fault where
  /-- Raised by `step` alone, on a state whose SL, SQRT_ITERS, IMEM_WORDS or DMEM_BYTES is outside the legal values of
  00_scope.md R7: the spec describes no such engine. Safe: nothing is claimed of it (log 10). -/
  | parameterOutOfRange
deriving DecidableEq, Repr

/-- What the model gives no meaning. -/
inductive Refusal where
  /-- An instruction with no meaning yet; `exec` alone may raise it, and no arm of it does. Safe. -/
  | notModelled (mnemonic : String)
  /-- Raised by `step` alone, on a state whose limb width or limb count is outside R7, such as the 30-bit variant, which
  93_implementation_defined.md I2 says to refuse (90_conflicts.md C7). Safe (log 10). -/
  | unsupportedWidth
deriving DecidableEq, Repr

/-- One thing that may reach the engine from outside during a step (20_memory.md R80; 70_reset_and_hazards.md R360). -/
inductive HostEvent where
  /-- No access during this step. -/
  | quiet
  /-- A 32-bit read at a byte offset of the window (R80). -/
  | read (offset : BitVec 20)
  /-- A 32-bit write at a byte offset of the window (R80). -/
  | write (offset : BitVec 20) (data : Word)
  /-- The platform asserts the hardware reset (R360). -/
  | hardReset
deriving DecidableEq, Repr

/-- The state of the engine. A field's comment names the rule of 10_state.md (or another file) that gives it. -/
structure State where
  /-- The build's parameters: the contents of ID, CFG and CFG2 (R7, R8, R50 to R52). No step changes them. -/
  params : Params
  /-- W0 to W7 (R30), each in the low `W` bits of its cell. -/
  wide : Vector Wide 8
  /-- S0 to S7 (R36). S0's cell is never written and never read. -/
  scalar : Vector Half 8
  /-- The flag Z, "equal" or "zero" (R39). -/
  z : Bool
  /-- The flag N, "less than" or "negative" (R39). -/
  n : Bool
  /-- The program counter, a word index into IMEM (R43). -/
  pc : Half
  /-- STATUS.BUSY (R54). -/
  busy : Bool
  /-- STATUS.DONE (R54). -/
  done : Bool
  /-- STATUS.FAULT (R54). -/
  faulted : Bool
  /-- STATUS.IRQ (R54). -/
  irq : Bool
  /-- CTRL.IRQ_EN (R53). -/
  irqEn : Bool
  /-- START_PC (R55). -/
  startPC : Half
  /-- FAULT_CAUSE (R58). -/
  faultCause : Byte
  /-- FAULT_PC (R59). -/
  faultPC : Half
  /-- FAULT_INFO (R60). -/
  faultInfo : Word
  /-- IMEM (20_memory.md R70): the words written since power-on, by word index, indices strictly rising. -/
  imem : List (Nat × Word)
  /-- DMEM (20_memory.md R70): the bytes written since power-on, by byte address, addresses strictly rising. -/
  dmem : List Host.Cell
  /-- The model's own: what reaches the engine from outside, in order of arrival, one event a step (log 6). -/
  hostQueue : List HostEvent
  /-- The model's own: the word the last host read returned (log 7). -/
  busData : Word
deriving DecidableEq, Repr

/-- The machine powered on at the reference parameters and right after a hardware reset (70_reset_and_hazards.md R360): every
register, flag and status bit 0, idle, nothing written to either memory; and nothing waiting outside. -/
def State.reset : State where
  params := Params.reference
  wide := Vector.replicate 8 0
  scalar := Vector.replicate 8 0
  z := false
  n := false
  pc := 0
  busy := false
  done := false
  faulted := false
  irq := false
  irqEn := false
  startPC := 0
  faultCause := 0
  faultPC := 0
  faultInfo := 0
  imem := []
  dmem := []
  hostQueue := []
  busData := 0

end Sys2Proof.Machine
end

