-- ==== Sys2Proof/Machine/Ops.lean ====
section
/-! DEFINITION. The named operations over registers and memory, taking a fault (60_exceptions.md R323), ending and starting a run,
and the resets (70_reset_and_hazards.md R360 to R363). -/

namespace Sys2Proof.Machine

/-! ### Sparse memory -/

/-- The value stored at `a`, if anything was. -/
def Memory.find {α : Type} : List (Nat × α) → Nat → Option α
  | [], _ => none
  | (b, v) :: m, a => if a = b then some v else Memory.find m a

/-- Stores `v` at `a`, keeping the addresses strictly rising. -/
def Memory.put {α : Type} : List (Nat × α) → Nat → α → List (Nat × α)
  | [], a, v => [(a, v)]
  | (b, u) :: m, a, v =>
    if a < b then (a, v) :: (b, u) :: m
    else if a = b then (a, v) :: m
    else (b, u) :: Memory.put m a v

/-- Every address of the list is above `lo`, and they rise strictly. -/
def Memory.risingFrom {α : Type} : Nat → List (Nat × α) → Bool
  | _, [] => true
  | lo, (b, _) :: m => decide (lo < b) && Memory.risingFrom b m

/-- The canonical form: addresses strictly rising. An unlisted address holds no written value (log 3), so no entry can repeat
what an unlisted address holds. -/
def Memory.wf {α : Type} : List (Nat × α) → Bool
  | [] => true
  | (b, _) :: m => Memory.risingFrom b m

/-- Every listed address is below `bound`. -/
def Memory.below {α : Type} (bound : Nat) (m : List (Nat × α)) : Bool := m.all (fun c => decide (c.1 < bound))

/-- IMEM word `k` (20_memory.md R76): what was last written there, or what power-on left (R360, I7). -/
def State.imemWord (s : State) (k : Nat) : Word := (Memory.find s.imem k).getD (Config.powerOnWord k)

/-- Writes IMEM word `k`; only the host does (R71, R83). -/
def State.imemPut (s : State) (k : Nat) (w : Word) : State := { s with imem := Memory.put s.imem k w }

/-- DMEM byte `a` (R70): what was last written there, or what power-on left (R360, I8). -/
def State.dmemByte (s : State) (a : Nat) : Byte := (Memory.find s.dmem a).getD (Config.powerOnByte a)

/-- The DMEM bytes `a` to `a + n - 1`, the lowest address first. -/
def State.dmemBytes (s : State) (a : Nat) : Nat → List Byte
  | 0 => []
  | k + 1 => s.dmemByte a :: s.dmemBytes (a + 1) k

/-- Stores a byte into DMEM. -/
def State.dmemPut (s : State) (a : Nat) (v : Byte) : State := { s with dmem := Memory.put s.dmem a v }

/-- Stores bytes into DMEM at `a`, `a + 1`, … -/
def State.dmemPutBytes (s : State) (a : Nat) : List Byte → State
  | [] => s
  | v :: vs => (s.dmemPut a v).dmemPutBytes (a + 1) vs

/-- The little-endian value of bytes, the first the least significant (R74). -/
def bytesValue : List Byte → Nat
  | [] => 0
  | b :: bs => b.toNat + 256 * bytesValue bs

/-- The `n` little-endian bytes of a value, byte `j` being bits `[8j+7 : 8j]` (R73, R74). -/
def valueBytes : Nat → Nat → List Byte
  | 0, _ => []
  | k + 1, v => BitVec.ofNat 8 v :: valueBytes k (v / 256)

/-- `MemRead(addr, n)` (R72): the bytes assembled little-endian, or none where the access leaves DMEM, which raises BADADDR. The
bound check is on unbounded integers: no access wraps. -/
def State.memRead (s : State) (addr : Half) (n : Nat) : Option Nat :=
  if addr.toNat + n > s.params.dmemBytes then none else some (bytesValue (s.dmemBytes addr.toNat n))

/-- `MemWrite(addr, n, v)` (R73): the state with the `n` bytes of `v` stored, or none where the access leaves DMEM, which raises
BADADDR and stores no byte. -/
def State.memWrite (s : State) (addr : Half) (n v : Nat) : Option State :=
  if addr.toNat + n > s.params.dmemBytes then none else some (s.dmemPutBytes addr.toNat (valueBytes n v))

/-! ### Registers -/

/-- The low `W` bits of a cell: the W-bit pattern a wide register holds (10_state.md R30). -/
def truncW (p : Params) (x : Wide) : Wide := BitVec.ofNat 128 (x.toNat % 2 ^ p.W)

/-- `W[i]` (00_scope.md R13, 10_state.md R30). -/
def State.readW (s : State) (i : WReg) : Wide := truncW s.params (s.wide.get i)

/-- `W[i] <- v` (R13, R30): the low `W` bits of `v` are stored. -/
def State.writeW (s : State) (i : WReg) (v : Wide) : State :=
  { s with wide := s.wide.set i (truncW s.params v) }

/-- `S[i]` (R13): S0 reads 0x0000 (10_state.md R36). -/
def State.readS (s : State) (i : SReg) : Half := if i = 0 then 0 else s.scalar.get i

/-- `S[i] <- v` (R13): a write to S0 is discarded (10_state.md R36). -/
def State.writeS (s : State) (i : SReg) (v : Half) : State :=
  if i = 0 then s else { s with scalar := s.scalar.set i v }

/-- `Z <- zero ; N <- negative`: a flag-writing instruction writes both (10_state.md R40). -/
def State.setFlags (s : State) (zero negative : Bool) : State := { s with z := zero, n := negative }

/-- `pc <- target` (R13). -/
def State.jump (s : State) (target : Half) : State := { s with pc := target }

/-- `pc <- enc_16(pc + 1)`, modulo 2^16 (10_state.md R44). -/
def State.advance (s : State) : State := s.jump (s.pc + 1)

/-! ### Faults -/

/-- The fault causes (60_exceptions.md R321). -/
inductive Cause where
  | illegal | overflow | divZero | domain | limbRange | badAddr | badPC | brk
deriving DecidableEq, Repr

/-- The cause's code in FAULT_CAUSE (R321). -/
def Cause.code : Cause → Byte
  | .illegal => 0x01
  | .overflow => 0x02
  | .divZero => 0x03
  | .domain => 0x04
  | .limbRange => 0x05
  | .badAddr => 0x06
  | .badPC => 0x07
  | .brk => 0x08

/-- FAULT_INFO of OVERFLOW, DIVZERO and DOMAIN (R322): d in bits [2:0], a in [5:3], b in [8:6], the shift in [23:16]. -/
def arithInfo (d a b : Nat) (shift : Nat) : Word :=
  BitVec.ofNat 32 (d + 2 ^ 3 * a + 2 ^ 6 * b + 2 ^ 16 * (shift % 2 ^ 8))

/-- TAKING A FAULT, the one shared operation (R323): the instruction at `pc` raises `cause` with `info`. It writes nothing else, pc
stays, the cause, the pc and the information are recorded, and the run ends: BUSY <- 0, FAULT <- 1, IRQ <- 1. DONE "stays 0". There
is no return from a fault in the engine (R337): the host starts a new run (`State.start`). -/
def State.raiseFault (s : State) (cause : Cause) (info : Word) : State :=
  { s with
    faultCause := cause.code
    faultPC := s.pc
    faultInfo := info
    busy := false
    faulted := true
    irq := true }

/-! ### Runs and resets -/

/-- HALT's end of a run (48_control.md R296; 70_reset_and_hazards.md R363): BUSY <- 0, DONE <- 1, IRQ <- 1; pc stays. -/
def State.halt (s : State) : State := { s with busy := false, done := true, irq := true }

/-- What START does to an idle engine (70_reset_and_hazards.md R362). Registers, flags and both memories keep their values. This is also
the way on after a fault (60_exceptions.md R337, R338). -/
def State.start (s : State) : State :=
  { s with
    pc := s.startPC
    done := false
    faulted := false
    irq := false
    faultCause := 0
    faultPC := 0
    faultInfo := 0
    busy := true }

/-- The soft reset (R361): every register, flag and status bit to its hardware-reset value, but IRQ_EN; both memories kept. -/
def State.softReset (s : State) : State :=
  { s with
    wide := Vector.replicate 8 0
    scalar := Vector.replicate 8 0
    z := false
    n := false
    pc := 0
    busy := false
    done := false
    faulted := false
    irq := false
    startPC := 0
    faultCause := 0
    faultPC := 0
    faultInfo := 0 }

/-- The hardware reset (R360): as the soft reset, and IRQ_EN = 0. Both memories are unchanged while powered. -/
def State.hardReset (s : State) : State := { s.softReset with irqEn := false }

/-- The interrupt output (60_exceptions.md R340): `irq = STATUS.IRQ AND CTRL.IRQ_EN`. -/
def State.irqLine (s : State) : Bool := s.irq && s.irqEn

end Sys2Proof.Machine
end

