-- ==== Sys2Proof/Machine/Operands.lean ====
section
/-! DEFINITION. How operands are read: limbs, the signed and unsigned readings and encodings of a wide value (00_scope.md R10 to R12),
sign and magnitude (40_limb_sign.md R121, R122), the effective address (47_memory_ops.md R270) and the branch target
(48_control.md R291). All arithmetic is on unbounded integers unless an encoding wraps it (R12). -/

namespace Sys2Proof.Machine

/-- `uval(x)`: the W-bit pattern read as an unsigned integer (R11). -/
def uval (p : Params) (x : Wide) : Nat := x.toNat % 2 ^ p.W

/-- `isneg(x) = x[W-1]`, the top bit of limb N-1 (40_limb_sign.md R121; 10_state.md R34). -/
def isneg (p : Params) (x : Wide) : Bool := uval p x / 2 ^ (p.W - 1) % 2 == 1

/-- `sval(x) = uval(x) - 2^W * x[W-1]`, the two's-complement reading (R11). -/
def sval (p : Params) (x : Wide) : Int := (uval p x : Int) - 2 ^ p.W * (if isneg p x then 1 else 0)

/-- `enc_W(v) = v mod 2^W`, the W-bit pattern of any integer (R11). -/
def encW (p : Params) (v : Int) : Wide := BitVec.ofInt 128 (v % 2 ^ p.W)

/-- `limb(x, i) = x[LB*i + LB - 1 : LB*i]` (R10). -/
def limb (p : Params) (x : Wide) (i : Nat) : Nat := uval p x / 2 ^ (p.LB * i) % 2 ^ p.LB

/-- The limbs 0 to N-1 of a wide value, least significant first (R10). -/
def limbs (p : Params) (x : Wide) : List Nat := (List.range p.N).map (limb p x)

/-- The number that limbs denote in base `radix`, least significant first. -/
def limbsValue (radix : Nat) : List Nat → Nat
  | [] => 0
  | l :: ls => l + radix * limbsValue radix ls

/-- The `k` low limbs of a number in base `radix`, least significant first. -/
def numberLimbs (radix : Nat) : Nat → Nat → List Nat
  | 0, _ => []
  | k + 1, v => v % radix :: numberLimbs radix k (v / radix)

/-- `mklimbs(l_0, ..., l_(N-1))`: the pattern whose limb i is `l_i` (R10). -/
def mklimbs (p : Params) (ls : List Nat) : Wide := BitVec.ofNat 128 (limbsValue p.radix ls)

/-- `iszero(x)`: every limb is exactly 0 (40_limb_sign.md R121). -/
def iszero (p : Params) (x : Wide) : Bool := (limbs p x).all (· == 0)

/-- `ispos(x) = not isneg(x) and not iszero(x)` (R121). -/
def ispos (p : Params) (x : Wide) : Bool := !isneg p x && !iszero p x

/-- `MIN`: only bit W-1 set, the value -2^(W-1) (R11). -/
def wideMin (p : Params) : Wide := BitVec.ofNat 128 (2 ^ (p.W - 1))

/-- `MAX`: the value 2^(W-1) - 1 (R11). -/
def wideMax (p : Params) : Wide := BitVec.ofNat 128 (2 ^ (p.W - 1) - 1)

/-- `sext_W(v)` of a 16-bit pattern (R12): WFROMS's and LDI's value. -/
def sextW (p : Params) (v : Half) : Wide := encW p v.toInt

/-- The effective address `EA = enc_16(uval_16(S[a]) + simm)`, wrapped before the bounds check (47_memory_ops.md R270). -/
def State.effAddr (s : State) (a : SReg) (simm : Half) : Half :=
  BitVec.ofInt 16 ((s.readS a).toNat + simm.toInt)

/-- A pc-relative target `enc_16(pc + simm)`, relative to the branch's own index (48_control.md R291). -/
def State.branchTarget (s : State) (simm : Half) : Half := BitVec.ofInt 16 (s.pc.toNat + simm.toInt)

end Sys2Proof.Machine
end

