-- ==== Sys2Proof/Machine/Datapath.lean ====
section
/-! DEFINITION. The limb datapath, as the spec's own pseudocode: the negator (40_limb_sign.md R120), the adder (41_add_sub.md R153), the
schoolbook multiplier (42_multiply.md R170), sign application (R171), Algorithm D (43_divide.md R190) and the Newton-Raphson square
root (44_sqrt.md R210, R211). Limb lists are least significant first. The closed forms the spec gives beside them are statements. -/

namespace Sys2Proof.Machine

/-! ### Negation and addition -/

/-- The loop of R120: one's complement of each limb plus the carry `c`; the final carry is discarded. -/
def negLimbs (radix : Nat) : Nat → List Nat → List Nat
  | _, [] => []
  | c, l :: ls =>
    let t := (radix - 1 - l) + c
    if t ≥ radix then (t - radix) :: negLimbs radix 1 ls else t :: negLimbs radix 0 ls

/-- `neg(x)` (R120). -/
def neg (p : Params) (x : Wide) : Wide := mklimbs p (negLimbs p.radix 1 (limbs p x))

/-- The loop of R153: limb sums with carry `c`; the carry out of the top limb is discarded. -/
def addLimbs (radix : Nat) : Nat → List Nat → List Nat → List Nat
  | c, x :: xs, y :: ys =>
    let t := x + y + c
    if t ≥ radix then (t - radix) :: addLimbs radix 1 xs ys else t :: addLimbs radix 0 xs ys
  | _, _, _ => []

/-- `add(x, y)` (R153). -/
def add (p : Params) (x y : Wide) : Wide := mklimbs p (addLimbs p.radix 0 (limbs p x) (limbs p y))

/-- `mag(x)` (R122): `uval(x)`, or `uval(neg(x))` for a negative `x`. -/
def mag (p : Params) (x : Wide) : Nat := if isneg p x then uval p (neg p x) else uval p x

/-! ### Multiplication -/

/-- The inner loop of R170 for one limb `u` of the multiplicand: `t <- u * limb(q, j) + r[i+j] + c`, the low limb kept and the rest
carried; after the last limb `r[i+N] <- c`. The list `r` is `r[i], r[i+1], …`. -/
def mulRow (radix u : Nat) : Nat → List Nat → List Nat → List Nat
  | c, [], r => c :: r.tail
  | c, q :: qs, r =>
    let t := u * q + r.headD 0 + c
    t % radix :: mulRow radix u (t / radix) qs r.tail

/-- The outer loop of R170 over the limbs of `p`: row i works on `r[i], r[i+1], …`, and leaves `r[i]` final. -/
def mulRows (radix : Nat) (qs : List Nat) : List Nat → List Nat → List Nat
  | [], r => r
  | u :: us, r =>
    let row := mulRow radix u 0 qs r
    row.headD 0 :: mulRows radix qs us row.tail

/-- `mulmag(p, q)` (R170): the 2N-limb product of two magnitudes of N limbs each. -/
def mulmag (p : Params) (x y : Nat) : Nat :=
  limbsValue p.radix
    (mulRows p.radix (numberLimbs p.radix p.N y) (numberLimbs p.radix p.N x) (List.replicate (2 * p.N) 0))

/-- `apply_sign(Q, s)` (R171): the W-bit value of sign `s` and magnitude `Q`, or none where `Q > 2^(W-1) - 1 + s`, which raises OVERFLOW
(90_conflicts.md C6). -/
def applySign (p : Params) (q : Nat) (s : Bool) : Option Wide :=
  if q > 2 ^ (p.W - 1) - 1 + s.toNat then none
  else some (if s then encW p (-(q : Int)) else encW p q)

/-! ### Division: Algorithm D -/

/-- How many limbs are significant: `1 + max{ i : v_i != 0 }`, or 0 where all are 0 (R190's `n`). -/
def sigLimbs : List Nat → Nat
  | [] => 0
  | l :: ls => if sigLimbs ls ≠ 0 then sigLimbs ls + 1 else if l ≠ 0 then 1 else 0

/-- The count of leading zero bits of `v` as a `k`-bit field (R190's `sh`). -/
def leadingZeros : Nat → Nat → Nat
  | 0, _ => 0
  | k + 1, v => if v < 2 ^ k then leadingZeros k v + 1 else 0

/-- The rolling-remainder division of R190 by a one-limb divisor `v0`, over the dividend's limbs from the most significant: the quotient
so far and the remainder. -/
def shortDivide (radix v0 : Nat) : List Nat → Nat × Nat → Nat × Nat
  | [], acc => acc
  | u :: us, (q, r) =>
    let t := r * radix + u
    shortDivide radix v0 us (q * radix + t / v0, t % v0)

/-- The trial digit's correction loop of R190: while `qhat >= RADIX or qhat * v'[n-2] > RADIX * rhat + u'[j+n-2]`, decrement `qhat` and
add the top divisor limb to `rhat`, leaving once `rhat >= RADIX`. Each pass adds at least 1 to `rhat`, so RADIX passes, the `fuel` it
is given, always suffice (log 17). -/
def correctDigit (radix vTop vNext uNext : Nat) : Nat → Nat → Nat → Nat
  | 0, qhat, _ => qhat
  | fuel + 1, qhat, rhat =>
    if qhat ≥ radix ∨ qhat * vNext > radix * rhat + uNext then
      if rhat + vTop ≥ radix then qhat - 1
      else correctDigit radix vTop vNext uNext fuel (qhat - 1) (rhat + vTop)
    else qhat

/-- One pass of R190's main loop, at digit `j`, for a normalised divisor `vs` of `n >= 2` limbs: the dividend limbs `us` with the window
`u'[j .. j+n]` replaced, and the quotient with digit `j` appended below. -/
def divideDigit (radix n : Nat) (vs : List Nat) (j : Nat) (acc : List Nat × Nat) : List Nat × Nat :=
  let us := acc.1
  let vTop := vs.getD (n - 1) 0
  let num := us.getD (j + n) 0 * radix + us.getD (j + n - 1) 0
  let qhat := correctDigit radix vTop (vs.getD (n - 2) 0) (us.getD (j + n - 2) 0) radix (num / vTop) (num % vTop)
  let window := limbsValue radix ((us.drop j).take (n + 1))
  let divisor := limbsValue radix vs
  let digit := if window < qhat * divisor then qhat - 1 else qhat
  let left := if window < qhat * divisor then window + divisor - qhat * divisor else window - qhat * divisor
  (us.take j ++ numberLimbs radix (n + 1) left ++ us.drop (j + n + 1), acc.2 * radix + digit)

/-- R190's main loop, `for j in count-1 down to 0`. -/
def divideDigits (radix n : Nat) (vs : List Nat) : Nat → List Nat × Nat → List Nat × Nat
  | 0, acc => acc
  | j + 1, acc => divideDigits radix n vs j (divideDigit radix n vs j acc)

/-- `divmag(U, ulen, V)` (R190): quotient and remainder, for `U < RADIX^ulen` and `1 <= V < RADIX^N`. -/
def divmag (p : Params) (u ulen v : Nat) : Nat × Nat :=
  let vlimbs := numberLimbs p.radix p.N v
  let n := sigLimbs vlimbs
  if n ≤ 1 then shortDivide p.radix (vlimbs.headD 0) (numberLimbs p.radix ulen u).reverse (0, 0)
  else
    let sh := leadingZeros p.LB (vlimbs.getD (n - 1) 0)
    let vs := numberLimbs p.radix n (v * 2 ^ sh)
    let us := numberLimbs p.radix (ulen + 1) (u * 2 ^ sh)
    let out := divideDigits p.radix n vs (ulen + 1 - n) (us, 0)
    (out.2, limbsValue p.radix (out.1.take n) / 2 ^ sh)

/-! ### Square root -/

/-- The seed of R210: `g0 = 2^e` with `e = ceil(LB * (k + 1) / 2)`, where limb `k` is the highest nonzero limb of `V`. -/
def sqrtSeed (p : Params) (v : Nat) : Nat :=
  2 ^ ((p.LB * sigLimbs (numberLimbs p.radix (2 * p.N) v) + 1) / 2)

/-- One Newton pass of R211: `(g + V // g) // 2`, the inner quotient by the magnitude divider. -/
def sqrtPass (p : Params) (v g : Nat) : Nat := (g + (divmag p v (2 * p.N) g).1) / 2

/-- The loop of R211: at most `fuel` passes, leaving at the first that does not change the guess. -/
def sqrtLoop (p : Params) (v : Nat) : Nat → Nat → Nat
  | 0, g => g
  | fuel + 1, g => if sqrtPass p v g = g then g else sqrtLoop p v fuel (sqrtPass p v g)

/-- `nr_sqrt(V)` (R211), for `V >= 1`. -/
def nrSqrt (p : Params) (v : Nat) : Nat := sqrtLoop p v p.sqrtIters (sqrtSeed p v)

end Sys2Proof.Machine
end

