-- ==== Sys2Proof/Machine/Flags.lean ====
section
/-! DEFINITION. The flag computations (10_state.md R40) and the branch conditions (48_control.md R292). Only CMP, TST, SCMP and STST
write the flags; only the conditional branches read them (R40, R41). -/

namespace Sys2Proof.Machine

/-- CMP's and SCMP's flags: the exact signed comparison, never a wrapped difference (41_add_sub.md R152; 46_scalar.md R257;
90_conflicts.md C4). -/
def State.compareFlags (s : State) (x y : Int) : State := s.setFlags (decide (x = y)) (decide (x < y))

/-- TST's flags: `Z <- iszero(x) ; N <- isneg(x)` (40_limb_sign.md R129). -/
def State.testWideFlags (s : State) (x : Wide) : State := s.setFlags (iszero s.params x) (isneg s.params x)

/-- STST's flags: `Z <- (x == 0) ; N <- (sval_16(x) < 0)` (46_scalar.md R256). -/
def State.testScalarFlags (s : State) (x : Half) : State := s.setFlags (x == 0) (decide (x.toInt < 0))

/-- The conditions of the six conditional branches (48_control.md R292). -/
inductive Cond where
  | eq | ne | lt | ge | gt | le
deriving DecidableEq, Repr

/-- `cond(Z, N)` by the table of R292. -/
def Cond.holds : Cond → Bool → Bool → Bool
  | .eq, z, _ => z
  | .ne, z, _ => !z
  | .lt, _, n => n
  | .ge, _, n => !n
  | .gt, z, n => !z && !n
  | .le, z, n => z || n

/-- `if cond(Z, N): pc <- enc_16(pc + simm) else: pc <- enc_16(pc + 1)` (R292). -/
def State.branchIf (s : State) (c : Cond) (simm : Half) : State :=
  if c.holds s.z s.n then s.jump (s.branchTarget simm) else s.advance

end Sys2Proof.Machine
end

