-- ==== Sys2Proof/Machine/LimbSign.lean ====
section
/-! DEFINITION. The meanings of 40_limb_sign.md: WFROMS, MOV, LDI, SETL, NEG, ABS, TST, SHL, ASR. -/

namespace Sys2Proof.Machine

/-- `W[d] <- v`, then the next instruction (10_state.md R44): how every instruction that writes a wide register and cannot fault ends. -/
def State.writeWNext (s : State) (d : WReg) (v : Wide) : Host.Outcome State Fault Refusal :=
  .next (s.writeW d v).advance

/-- WFROMS (R123): `W[d] <- sext_W(S[a])`. -/
def execWfroms (d : WReg) (a : SReg) (s : State) : Host.Outcome State Fault Refusal :=
  s.writeWNext d (sextW s.params (s.readS a))

/-- MOV (R124): `W[d] <- W[a]`. -/
def execMov (d a : WReg) (s : State) : Host.Outcome State Fault Refusal := s.writeWNext d (s.readW a)

/-- LDI (R125): `W[d] <- enc_W(simm)`. -/
def execLdi (d : WReg) (simm : Half) (s : State) : Host.Outcome State Fault Refusal :=
  s.writeWNext d (encW s.params simm.toInt)

/-- SETL (R126): one limb replaced. `idx >= N` raises ILLEGAL, which decoding has already done for a fetched word; `val >= RADIX` raises
LIMB_RANGE. FAULT_INFO is the instruction's word (60_exceptions.md R322; log 11). -/
def execSetl (d : WReg) (idx val : Byte) (s : State) : Host.Outcome State Fault Refusal :=
  if idx.toNat ≥ s.params.N then .next (s.raiseFault .illegal (encode (.setl d idx val)))
  else if val.toNat ≥ s.params.radix then .next (s.raiseFault .limbRange (encode (.setl d idx val)))
  else s.writeWNext d (mklimbs s.params ((limbs s.params (s.readW d)).set idx.toNat val.toNat))

/-- NEG (R127): `W[d] <- neg(W[a])`, wrapping (92_eei_decisions.md D12). -/
def execNeg (d a : WReg) (s : State) : Host.Outcome State Fault Refusal :=
  s.writeWNext d (neg s.params (s.readW a))

/-- ABS (R128): `W[d] <- (isneg(W[a]) ? neg(W[a]) : W[a])`; ABS of MIN is MIN. -/
def execAbs (d a : WReg) (s : State) : Host.Outcome State Fault Refusal :=
  s.writeWNext d (if isneg s.params (s.readW a) then neg s.params (s.readW a) else s.readW a)

/-- TST (R129): `Z <- iszero(W[a]) ; N <- isneg(W[a])`. -/
def execTst (a : WReg) (s : State) : Host.Outcome State Fault Refusal :=
  .next (s.testWideFlags (s.readW a)).advance

/-- SHL (R130): `W[d] <- (n >= W) ? 0 : enc_W(uval(W[a]) * 2^n)`. -/
def execShl (d a : WReg) (count : Half) (s : State) : Host.Outcome State Fault Refusal :=
  s.writeWNext d (if count.toNat ≥ s.params.W then 0
    else encW s.params ((uval s.params (s.readW a) * 2 ^ count.toNat : Nat) : Int))

/-- ASR (R131): `W[d] <- enc_W(floor(sval(W[a]) / 2^min(n, W)))`. -/
def execAsr (d a : WReg) (count : Half) (s : State) : Host.Outcome State Fault Refusal :=
  s.writeWNext d (encW s.params (sval s.params (s.readW a) / 2 ^ min count.toNat s.params.W))

end Sys2Proof.Machine
end

