-- ==== Sys2Proof/Machine/AddSub.lean ====
section
/-! DEFINITION. The meanings of 41_add_sub.md: ADD, SUB, CMP. -/

namespace Sys2Proof.Machine

/-- ADD (R150): `W[d] <- add(W[a], W[b])`, wrapping (90_conflicts.md C2). -/
def execAdd (d a b : WReg) (s : State) : Host.Outcome State Fault Refusal :=
  s.writeWNext d (add s.params (s.readW a) (s.readW b))

/-- SUB (R151): `W[d] <- add(W[a], neg(W[b]))`, wrapping. -/
def execSub (d a b : WReg) (s : State) : Host.Outcome State Fault Refusal :=
  s.writeWNext d (add s.params (s.readW a) (neg s.params (s.readW b)))

/-- CMP (R152): the exact signed comparison (90_conflicts.md C4). -/
def execCmp (a b : WReg) (s : State) : Host.Outcome State Fault Refusal :=
  .next (s.compareFlags (sval s.params (s.readW a)) (sval s.params (s.readW b))).advance

end Sys2Proof.Machine
end

