-- ==== Sys2Proof/Machine/Control.lean ====
section
/-! DEFINITION. The meanings of 48_control.md: BRA, the six conditional branches, JAL, JR, HALT, NOP, BRK. A target outside IMEM faults at
the next fetch, not here (R291). -/

namespace Sys2Proof.Machine

/-- HALT (R296): the run ends with DONE; pc keeps the HALT's index. -/
def execHalt (s : State) : Host.Outcome State Fault Refusal := .next s.halt

/-- NOP (R297). -/
def execNop (s : State) : Host.Outcome State Fault Refusal := .next s.advance

/-- BRK (R298): always the fault BREAK, with the code as FAULT_INFO. -/
def execBrk (code : Half) (s : State) : Host.Outcome State Fault Refusal :=
  .next (s.raiseFault .brk (code.zeroExtend 32))

/-- BRA (R290): `pc <- enc_16(pc + simm)`. -/
def execBra (simm : Half) (s : State) : Host.Outcome State Fault Refusal := .next (s.jump (s.branchTarget simm))

/-- BEQ (R292): taken if Z = 1. -/
def execBeq (simm : Half) (s : State) : Host.Outcome State Fault Refusal := .next (s.branchIf .eq simm)

/-- BNE (R292): taken if Z = 0. -/
def execBne (simm : Half) (s : State) : Host.Outcome State Fault Refusal := .next (s.branchIf .ne simm)

/-- BLT (R292): taken if N = 1. -/
def execBlt (simm : Half) (s : State) : Host.Outcome State Fault Refusal := .next (s.branchIf .lt simm)

/-- BGE (R292): taken if N = 0. -/
def execBge (simm : Half) (s : State) : Host.Outcome State Fault Refusal := .next (s.branchIf .ge simm)

/-- BGT (R292): taken if Z = 0 and N = 0. -/
def execBgt (simm : Half) (s : State) : Host.Outcome State Fault Refusal := .next (s.branchIf .gt simm)

/-- BLE (R292): taken if Z = 1 or N = 1. -/
def execBle (simm : Half) (s : State) : Host.Outcome State Fault Refusal := .next (s.branchIf .le simm)

/-- JAL (R293): `t <- enc_16(pc + simm) ; S[d] <- enc_16(pc + 1) ; pc <- t`. -/
def execJal (d : SReg) (simm : Half) (s : State) : Host.Outcome State Fault Refusal :=
  .next ((s.writeS d (s.pc + 1)).jump (s.branchTarget simm))

/-- JR (R294): `pc <- S[a]`. -/
def execJr (a : SReg) (s : State) : Host.Outcome State Fault Refusal := .next (s.jump (s.readS a))

end Sys2Proof.Machine
end

