-- ==== Sys2Proof/Machine/Multiply.lean ====
section
/-! DEFINITION. The meanings of 42_multiply.md: MUL, FMUL. -/

namespace Sys2Proof.Machine

/-- How MUL, FMUL, DIV and FDIV end: `W[d] <- apply_sign(Q, s)`, or OVERFLOW with the register numbers and the shift (42_multiply.md R171;
60_exceptions.md R322). -/
def State.signedResult (s : State) (d a b : WReg) (shift q : Nat) (sign : Bool) : Host.Outcome State Fault Refusal :=
  match applySign s.params q sign with
  | some v => s.writeWNext d v
  | none => .next (s.raiseFault .overflow (arithInfo d a b shift))

/-- `s <- isneg(W[a]) XOR isneg(W[b])`, the sign of a product or a quotient (R172, 43_divide.md R192). -/
def State.signXor (s : State) (a b : WReg) : Bool :=
  Bool.xor (isneg s.params (s.readW a)) (isneg s.params (s.readW b))

/-- MUL (R172). -/
def execMul (d a b : WReg) (s : State) : Host.Outcome State Fault Refusal :=
  s.signedResult d a b 0 (mulmag s.params (mag s.params (s.readW a)) (mag s.params (s.readW b))) (s.signXor a b)

/-- FMUL (R173): the product's low SL limbs are dropped, so the result rounds toward zero (90_conflicts.md C10). -/
def execFmul (d a b : WReg) (s : State) : Host.Outcome State Fault Refusal :=
  s.signedResult d a b s.params.FB
    (mulmag s.params (mag s.params (s.readW a)) (mag s.params (s.readW b)) / 2 ^ s.params.FB) (s.signXor a b)

end Sys2Proof.Machine
end

