-- ==== Sys2Proof/Machine/Divide.lean ====
section
/-! DEFINITION. The meanings of 43_divide.md: DIV, FDIV. The divisor test comes first (R191, R195; 90_conflicts.md C5); the remainder is
discarded (R196). -/

namespace Sys2Proof.Machine

/-- DIV (R192): the magnitude quotient with the sign applied, rounding toward zero. -/
def execDiv (d a b : WReg) (s : State) : Host.Outcome State Fault Refusal :=
  if iszero s.params (s.readW b) then .next (s.raiseFault .divZero (arithInfo d a b 0))
  else s.signedResult d a b 0
    (divmag s.params (mag s.params (s.readW a)) s.params.N (mag s.params (s.readW b))).1 (s.signXor a b)

/-- FDIV (R193): the dividend is widened to N+SL limbs and shifted left by SL limbs before dividing. -/
def execFdiv (d a b : WReg) (s : State) : Host.Outcome State Fault Refusal :=
  if iszero s.params (s.readW b) then .next (s.raiseFault .divZero (arithInfo d a b s.params.FB))
  else s.signedResult d a b s.params.FB
    (divmag s.params (mag s.params (s.readW a) * 2 ^ s.params.FB) (s.params.N + s.params.SL)
      (mag s.params (s.readW b))).1 (s.signXor a b)

end Sys2Proof.Machine
end

