-- ==== Sys2Proof/Machine/LimbShift.lean ====
section
/-! DEFINITION. The meanings of 45_limb_shift.md: LSHL, LSHR, LSRA. No count faults (R230). -/

namespace Sys2Proof.Machine

/-- LSHL's limbs (R231): `l_i = limb(x, i - k)` if `i >= k`, and 0 otherwise. -/
def shiftLimbsLeft (p : Params) (x : Wide) (k : Nat) : Wide :=
  mklimbs p ((List.range p.N).map fun i => if i ≥ k then limb p x (i - k) else 0)

/-- LSHR's and LSRA's limbs (R232, R233): `l_i = limb(x, i + k)` if `i + k < N`, and the fill limb otherwise. -/
def shiftLimbsRight (p : Params) (x : Wide) (k fill : Nat) : Wide :=
  mklimbs p ((List.range p.N).map fun i => if i + k < p.N then limb p x (i + k) else fill)

/-- LSHL (R231). -/
def execLshl (d a : WReg) (k : Half) (s : State) : Host.Outcome State Fault Refusal :=
  s.writeWNext d (shiftLimbsLeft s.params (s.readW a) k.toNat)

/-- LSHR (R232): zero fill. -/
def execLshr (d a : WReg) (k : Half) (s : State) : Host.Outcome State Fault Refusal :=
  s.writeWNext d (shiftLimbsRight s.params (s.readW a) k.toNat 0)

/-- LSRA (R233): the fill limb is RADIX - 1 for a negative operand, 0 otherwise. -/
def execLsra (d a : WReg) (k : Half) (s : State) : Host.Outcome State Fault Refusal :=
  s.writeWNext d (shiftLimbsRight s.params (s.readW a) k.toNat
    (if isneg s.params (s.readW a) then s.params.radix - 1 else 0))

end Sys2Proof.Machine
end

