-- ==== Sys2Proof/Machine/Scalar.lean ====
section
/-! DEFINITION. The meanings of 46_scalar.md: SLI, SADDI, SADD, SSUB, SSHL, SASR, STST, SCMP; and the source's bit-at-a-time shift loops
(R258). All scalar arithmetic wraps modulo 2^16 and none faults. -/

namespace Sys2Proof.Machine

/-- `S[d] <- v`, then the next instruction. -/
def State.writeSNext (s : State) (d : SReg) (v : Half) : Host.Outcome State Fault Refusal :=
  .next (s.writeS d v).advance

/-- SSHL's value (R254): `(n >= 16) ? 0 : enc_16(uval_16(x) * 2^n)`. -/
def scalarShiftLeft (x : Half) (n : Nat) : Half := if n ≥ 16 then 0 else BitVec.ofNat 16 (x.toNat * 2 ^ n)

/-- SASR's value (R255): `enc_16(floor(sval_16(x) / 2^min(n, 16)))`. -/
def scalarShiftRight (x : Half) (n : Nat) : Half := BitVec.ofInt 16 (x.toInt / 2 ^ min n 16)

/-- R258's left shift: `n` doublings modulo 2^16. -/
def doublingLoop : Nat → Half → Half
  | 0, x => x
  | n + 1, x => doublingLoop n (BitVec.ofNat 16 (2 * x.toNat))

/-- R258's right shift: `n` halvings toward negative infinity, stopping at -1. -/
def halvingLoop : Nat → Int → Int
  | 0, v => v
  | n + 1, v => if v = -1 then v else halvingLoop n (if v ≥ 0 then v / 2 else -((-v + 1) / 2))

/-- SLI (R250): `S[d] <- imm`. -/
def execSli (d : SReg) (imm : Half) (s : State) : Host.Outcome State Fault Refusal := s.writeSNext d imm

/-- SADDI (R251): `S[d] <- enc_16(uval_16(S[a]) + simm)`. -/
def execSaddi (d a : SReg) (simm : Half) (s : State) : Host.Outcome State Fault Refusal :=
  s.writeSNext d (BitVec.ofInt 16 ((s.readS a).toNat + simm.toInt))

/-- SADD (R252): `S[d] <- enc_16(uval_16(S[a]) + uval_16(S[b]))`. -/
def execSadd (d a b : SReg) (s : State) : Host.Outcome State Fault Refusal :=
  s.writeSNext d (BitVec.ofNat 16 ((s.readS a).toNat + (s.readS b).toNat))

/-- SSUB (R253): `S[d] <- enc_16(uval_16(S[a]) - uval_16(S[b]))`. -/
def execSsub (d a b : SReg) (s : State) : Host.Outcome State Fault Refusal :=
  s.writeSNext d (BitVec.ofInt 16 ((s.readS a).toNat - (s.readS b).toNat))

/-- SSHL (R254). -/
def execSshl (d a : SReg) (count : Half) (s : State) : Host.Outcome State Fault Refusal :=
  s.writeSNext d (scalarShiftLeft (s.readS a) count.toNat)

/-- SASR (R255). -/
def execSasr (d a : SReg) (count : Half) (s : State) : Host.Outcome State Fault Refusal :=
  s.writeSNext d (scalarShiftRight (s.readS a) count.toNat)

/-- STST (R256). -/
def execStst (a : SReg) (s : State) : Host.Outcome State Fault Refusal :=
  .next (s.testScalarFlags (s.readS a)).advance

/-- SCMP (R257). -/
def execScmp (a b : SReg) (s : State) : Host.Outcome State Fault Refusal :=
  .next (s.compareFlags (s.readS a).toInt (s.readS b).toInt).advance

end Sys2Proof.Machine
end

