-- ==== Sys2Proof/Machine/MemoryOps.lean ====
section
/-! DEFINITION. The meanings of 47_memory_ops.md: LDW, STW, LDS, STS. The only fault is BADADDR, with FAULT_INFO = zext_32(EA) (R275). -/

namespace Sys2Proof.Machine

/-- BADADDR at an effective address (60_exceptions.md R332). -/
def State.badAddr (s : State) (ea : Half) : Host.Outcome State Fault Refusal :=
  .next (s.raiseFault .badAddr (ea.zeroExtend 32))

/-- A store's end: the bytes stored and the next instruction, or BADADDR and no byte (20_memory.md R73). -/
def State.storeNext (s : State) (ea : Half) (n v : Nat) : Host.Outcome State Fault Refusal :=
  match s.memWrite ea n v with
  | some t => .next t.advance
  | none => s.badAddr ea

/-- LDW (R271): `W[d] <- MemRead(EA, W/8)`. -/
def execLdw (d : WReg) (a : SReg) (simm : Half) (s : State) : Host.Outcome State Fault Refusal :=
  match s.memRead (s.effAddr a simm) s.params.wideBytes with
  | some v => s.writeWNext d (BitVec.ofNat 128 v)
  | none => s.badAddr (s.effAddr a simm)

/-- STW (R272): `MemWrite(EA, W/8, W[d])`. -/
def execStw (d : WReg) (a : SReg) (simm : Half) (s : State) : Host.Outcome State Fault Refusal :=
  s.storeNext (s.effAddr a simm) s.params.wideBytes (uval s.params (s.readW d))

/-- LDS (R273): `S[d] <- MemRead(EA, 2)`; with d = 0 the access and its bounds check still happen. -/
def execLds (d a : SReg) (simm : Half) (s : State) : Host.Outcome State Fault Refusal :=
  match s.memRead (s.effAddr a simm) 2 with
  | some v => s.writeSNext d (BitVec.ofNat 16 v)
  | none => s.badAddr (s.effAddr a simm)

/-- STS (R274): `MemWrite(EA, 2, S[d])`. -/
def execSts (d a : SReg) (simm : Half) (s : State) : Host.Outcome State Fault Refusal :=
  s.storeNext (s.effAddr a simm) 2 (s.readS d).toNat

end Sys2Proof.Machine
end

