-- ==== Sys2Proof/Machine/Sqrt.lean ====
section
/-! DEFINITION. The meanings of 44_sqrt.md: ISQRT, FSQRT. -/

namespace Sys2Proof.Machine

/-- ISQRT (R212): DOMAIN for a negative operand, 0 for 0, else the Newton-Raphson root of `uval(W[a])`. -/
def execIsqrt (d a : WReg) (s : State) : Host.Outcome State Fault Refusal :=
  if isneg s.params (s.readW a) then .next (s.raiseFault .domain (arithInfo d a 0 0))
  else if iszero s.params (s.readW a) then s.writeWNext d 0
  else s.writeWNext d (encW s.params (nrSqrt s.params (uval s.params (s.readW a))))

/-- FSQRT (R213): the operand is scaled by 2^FB before the root, and the root is not rescaled (90_conflicts.md C9). -/
def execFsqrt (d a : WReg) (s : State) : Host.Outcome State Fault Refusal :=
  if isneg s.params (s.readW a) then .next (s.raiseFault .domain (arithInfo d a 0 s.params.FB))
  else if iszero s.params (s.readW a) then s.writeWNext d 0
  else s.writeWNext d (encW s.params (nrSqrt s.params (uval s.params (s.readW a) * 2 ^ s.params.FB)))

end Sys2Proof.Machine
end

