-- ==== Sys2Proof/Machine/Dispatch.lean ====
section
/-! DEFINITION. One arm per instruction of the opcode table (30_encoding.md R98). -/

namespace Sys2Proof.Machine

/-- The meaning of an instruction at a state (48_control.md R299, "execute the instruction's rule"). -/
def exec (i : Instr) (s : State) : Host.Outcome State Fault Refusal :=
  match i with
  | .halt => Sys2Proof.Machine.execHalt s
  | .nop => Sys2Proof.Machine.execNop s
  | .brk code => Sys2Proof.Machine.execBrk code s
  | .add d a b => Sys2Proof.Machine.execAdd d a b s
  | .sub d a b => Sys2Proof.Machine.execSub d a b s
  | .neg d a => Sys2Proof.Machine.execNeg d a s
  | .abs d a => Sys2Proof.Machine.execAbs d a s
  | .mul d a b => Sys2Proof.Machine.execMul d a b s
  | .div d a b => Sys2Proof.Machine.execDiv d a b s
  | .isqrt d a => Sys2Proof.Machine.execIsqrt d a s
  | .fmul d a b => Sys2Proof.Machine.execFmul d a b s
  | .fdiv d a b => Sys2Proof.Machine.execFdiv d a b s
  | .fsqrt d a => Sys2Proof.Machine.execFsqrt d a s
  | .cmp a b => Sys2Proof.Machine.execCmp a b s
  | .tst a => Sys2Proof.Machine.execTst a s
  | .mov d a => Sys2Proof.Machine.execMov d a s
  | .ldi d simm => Sys2Proof.Machine.execLdi d simm s
  | .setl d idx val => Sys2Proof.Machine.execSetl d idx val s
  | .wfroms d a => Sys2Proof.Machine.execWfroms d a s
  | .lshl d a k => Sys2Proof.Machine.execLshl d a k s
  | .lshr d a k => Sys2Proof.Machine.execLshr d a k s
  | .lsra d a k => Sys2Proof.Machine.execLsra d a k s
  | .shl d a count => Sys2Proof.Machine.execShl d a count s
  | .asr d a count => Sys2Proof.Machine.execAsr d a count s
  | .ldw d a simm => Sys2Proof.Machine.execLdw d a simm s
  | .stw d a simm => Sys2Proof.Machine.execStw d a simm s
  | .lds d a simm => Sys2Proof.Machine.execLds d a simm s
  | .sts d a simm => Sys2Proof.Machine.execSts d a simm s
  | .sli d imm => Sys2Proof.Machine.execSli d imm s
  | .saddi d a simm => Sys2Proof.Machine.execSaddi d a simm s
  | .sadd d a b => Sys2Proof.Machine.execSadd d a b s
  | .ssub d a b => Sys2Proof.Machine.execSsub d a b s
  | .sshl d a count => Sys2Proof.Machine.execSshl d a count s
  | .sasr d a count => Sys2Proof.Machine.execSasr d a count s
  | .stst a => Sys2Proof.Machine.execStst a s
  | .scmp a b => Sys2Proof.Machine.execScmp a b s
  | .bra simm => Sys2Proof.Machine.execBra simm s
  | .beq simm => Sys2Proof.Machine.execBeq simm s
  | .bne simm => Sys2Proof.Machine.execBne simm s
  | .blt simm => Sys2Proof.Machine.execBlt simm s
  | .bge simm => Sys2Proof.Machine.execBge simm s
  | .bgt simm => Sys2Proof.Machine.execBgt simm s
  | .ble simm => Sys2Proof.Machine.execBle simm s
  | .jal d simm => Sys2Proof.Machine.execJal d simm s
  | .jr a => Sys2Proof.Machine.execJr a s

end Sys2Proof.Machine
end

