-- ==== Sys2Proof/Machine/Fetch.lean ====
section
/-! DEFINITION. Fetch and decode (48_control.md R299), in the order of 60_exceptions.md R335: BADPC, then ILLEGAL. -/

namespace Sys2Proof.Machine

/-- Fetches the word at pc and decodes it: the instruction, or the fault the fetch or the decoding raises with its FAULT_INFO: BADPC with
zext_32(pc) where pc is outside IMEM (R334), ILLEGAL with the word where no row of R98 spells it (R327). -/
def State.fetchDecode (s : State) : Except (Cause × Word) Instr :=
  if s.pc.toNat ≥ s.params.imemWords then .error (.badPC, s.pc.zeroExtend 32)
  else
    match decode s.params.N (s.imemWord s.pc.toNat) with
    | .ok i => .ok i
    | .error _ => .error (.illegal, s.imemWord s.pc.toNat)

end Sys2Proof.Machine
end

