-- ==== Sys2Proof/Machine/HostWindow.lean ====
section
/-! DEFINITION. The host's view of the engine: the control registers (10_state.md R48 to R60), the register and memory windows (20_memory.md
R80 to R85), and what an event from outside does to the state. -/

namespace Sys2Proof.Machine

/-- The control registers of R48. -/
inductive ControlReg where
  | id | cfg | cfg2 | ctrl | status | startPC | pc | flags | faultCause | faultPC | faultInfo
deriving DecidableEq, Repr

/-- What an offset of the window reaches (R48, R80 to R84). -/
inductive WindowTarget where
  /-- A control register. -/
  | control (r : ControlReg)
  /-- S[i] (R81). -/
  | scalar (i : SReg)
  /-- Bytes 4j to 4j+3 of W[i] (R82). -/
  | wide (i : WReg) (j : Fin 4)
  /-- IMEM word k (R83). -/
  | imem (k : Nat)
  /-- The DMEM bytes from address a, a multiple of 4 (R84). -/
  | dmem (a : Nat)
  /-- A reserved offset: it reads 0 and ignores writes (R48, R80). -/
  | reserved
deriving DecidableEq, Repr

/-- The control register at a byte offset (the table of R48). -/
def controlRegAt : Nat → WindowTarget
  | 0x00 => .control .id
  | 0x04 => .control .cfg
  | 0x08 => .control .cfg2
  | 0x10 => .control .ctrl
  | 0x14 => .control .status
  | 0x18 => .control .startPC
  | 0x1C => .control .pc
  | 0x20 => .control .flags
  | 0x24 => .control .faultCause
  | 0x28 => .control .faultPC
  | 0x2C => .control .faultInfo
  | _ => .reserved

/-- The register number in a window whose registers are `size` bytes apart. -/
def windowReg (offset size : Nat) : Fin 8 := ⟨offset / size % 8, Nat.mod_lt _ (by decide)⟩

/-- What a byte offset of the window reaches; bits [1:0] of the offset are ignored (R80). -/
def windowTarget (p : Params) (offset : BitVec 20) : WindowTarget :=
  let a := offset.toNat / 4 * 4
  if a < 0x40 then controlRegAt a
  else if a < 0x60 then .scalar (windowReg (a - 0x40) 4)
  else if a < 0x100 then .reserved
  else if a < 0x180 then .wide (windowReg (a - 0x100) 16) ⟨(a - 0x100) / 4 % 4, Nat.mod_lt _ (by decide)⟩
  else if a < 0x40000 then .reserved
  else if a < 0x80000 then if (a - 0x40000) / 4 < p.imemWords then .imem ((a - 0x40000) / 4) else .reserved
  else if a < 0x90000 then if a - 0x80000 < p.dmemBytes then .dmem (a - 0x80000) else .reserved
  else .reserved

/-- A bit at a position of a register. -/
def bitAt (b : Bool) (i : Nat) : Nat := b.toNat * 2 ^ i

/-- ID (R50): LB, N, SL and the ISA version 0x01. -/
def Params.idWord (p : Params) : Word := BitVec.ofNat 32 (p.LB + 2 ^ 8 * p.N + 2 ^ 16 * p.SL + 2 ^ 24 * 0x01)

/-- CFG (R51): IMEM_WORDS - 1 and DMEM_BYTES - 1. -/
def Params.cfgWord (p : Params) : Word := BitVec.ofNat 32 (p.imemWords - 1 + 2 ^ 16 * (p.dmemBytes - 1))

/-- CFG2 (R52): SQRT_ITERS. -/
def Params.cfg2Word (p : Params) : Word := BitVec.ofNat 32 p.sqrtIters

/-- STATUS (R54): BUSY, DONE, FAULT, IRQ in bits 0 to 3. -/
def State.statusWord (s : State) : Word :=
  BitVec.ofNat 32 (bitAt s.busy 0 + bitAt s.done 1 + bitAt s.faulted 2 + bitAt s.irq 3)

/-- A register that reads 0 while a run is in progress (R49). -/
def State.whenIdle (s : State) (w : Word) : Word := if s.busy then 0 else w

/-- What a host read of a control register returns (R49 to R60). CTRL's START and SRESET read 0 (R53). -/
def State.readControl (s : State) : ControlReg → Word
  | .id => Params.idWord s.params
  | .cfg => Params.cfgWord s.params
  | .cfg2 => Params.cfg2Word s.params
  | .ctrl => BitVec.ofNat 32 (bitAt s.irqEn 2)
  | .status => s.statusWord
  | .startPC => s.startPC.zeroExtend 32
  | .pc => s.whenIdle (s.pc.zeroExtend 32)
  | .flags => s.whenIdle (BitVec.ofNat 32 (bitAt s.z 0 + bitAt s.n 1))
  | .faultCause => s.whenIdle (s.faultCause.zeroExtend 32)
  | .faultPC => s.whenIdle (s.faultPC.zeroExtend 32)
  | .faultInfo => s.whenIdle s.faultInfo

/-- What a host read returns (R80 to R85). A read changes nothing (R78). -/
def State.hostRead (s : State) (offset : BitVec 20) : Word :=
  match windowTarget s.params offset with
  | .control r => s.readControl r
  | .scalar i => s.whenIdle ((s.readS i).zeroExtend 32)
  | .wide i j => s.whenIdle (BitVec.ofNat 32 ((s.readW i).toNat / 2 ^ (32 * j.val)))
  | .imem k => s.whenIdle (s.imemWord k)
  | .dmem a => s.whenIdle (BitVec.ofNat 32 (bytesValue (s.dmemBytes a 4)))
  | .reserved => 0

/-- A write of CTRL (R53): IRQ_EN is always stored; SRESET = 1 performs the soft reset and START is then ignored; START = 1 alone starts
a run if the engine is idle (R361, R362). -/
def State.writeCtrl (s : State) (data : Word) : State :=
  let t := { s with irqEn := data.getLsbD 2 }
  if data.getLsbD 1 then t.softReset
  else if data.getLsbD 0 && !s.busy then t.start
  else t

/-- A write of STATUS (R54): 1 to bit 3 clears IRQ, in a run too (R49); the other bits are ignored. -/
def State.writeStatus (s : State) (data : Word) : State :=
  if data.getLsbD 3 then { s with irq := false } else s

/-- A host write of a control register; the read-only ones ignore it (R48, R49). -/
def State.writeControl (s : State) (data : Word) : ControlReg → State
  | .ctrl => s.writeCtrl data
  | .status => s.writeStatus data
  | .startPC => if s.busy then s else { s with startPC := data.setWidth 16 }
  | .id | .cfg | .cfg2 | .pc | .flags | .faultCause | .faultPC | .faultInfo => s

/-- The cell of a wide register with its bytes 4j to 4j+3 replaced (R82); `writeW` then drops the bytes at index `W/8` and above. -/
def replaceWideWord (x : Wide) (j : Nat) (data : Word) : Wide :=
  BitVec.ofNat 128 (x.toNat % 2 ^ (32 * j) + 2 ^ (32 * j) * data.toNat + 2 ^ (32 * j + 32) * (x.toNat / 2 ^ (32 * j + 32)))

/-- A write of a register or memory window, ignored while a run is in progress (R81 to R85). -/
def State.writeIdle (s t : State) : State := if s.busy then s else t

/-- What a host write does (R80 to R85). -/
def State.hostWrite (s : State) (offset : BitVec 20) (data : Word) : State :=
  match windowTarget s.params offset with
  | .control r => s.writeControl data r
  | .scalar i => s.writeIdle (s.writeS i (data.setWidth 16))
  | .wide i j => s.writeIdle (s.writeW i (replaceWideWord (s.readW i) j.val data))
  | .imem k => s.writeIdle (s.imemPut k data)
  | .dmem a => s.writeIdle (s.dmemPutBytes a (valueBytes 4 data.toNat))
  | .reserved => s

/-- What an event from outside does. A read's value goes to `busData`, the model's own field (log 7). -/
def State.hostEvent (s : State) : HostEvent → State
  | .quiet => s
  | .read offset => { s with busData := s.hostRead offset }
  | .write offset data => s.hostWrite offset data
  | .hardReset => s.hardReset

/-- The outside's turn at the end of a step: the first waiting event, if any, takes effect "after the step completes"
(60_exceptions.md R336; log 6). -/
def State.hostTurn (s : State) : State :=
  match s.hostQueue with
  | [] => s
  | e :: rest => { s with hostQueue := rest }.hostEvent e

/-- The outside's turn after an outcome of the engine. -/
def afterEngine : Host.Outcome State Fault Refusal → Host.Outcome State Fault Refusal
  | .next s => .next s.hostTurn
  | .fault r => .fault r
  | .refused r => .refused r

end Sys2Proof.Machine
end

