-- ==== Sys2Proof/Machine/Step.lean ====
section
/-! DEFINITION. The step: one instruction while a run is in progress (48_control.md R299), then the outside's turn. -/

namespace Sys2Proof.Machine

/-- One sequencer step of R299: fetch and decode, then the instruction's rule; its first fault ends the step. -/
def engineStep (s : State) : Host.Outcome State Fault Refusal :=
  match s.fetchDecode with
  | .ok i => exec i s
  | .error f => .next (s.raiseFault f.1 f.2)

/-- One step of the machine. While BUSY = 1 it runs one instruction (R299); while idle the engine waits (60_exceptions.md R346). Then the
first event waiting outside, if any, takes effect (R336). Parameters outside 00_scope.md R7 describe no engine (log 10). -/
def step (s : State) : Host.Outcome State Fault Refusal :=
  if !s.params.widthLegal then .refused .unsupportedWidth
  else if !s.params.sizesLegal then .fault .parameterOutOfRange
  else if s.busy then afterEngine (engineStep s)
  else .next s.hostTurn

/-- The state with the instruction whose bits are `w` (numbered as spec/opcode_table.json numbers them) in IMEM where the next step
fetches, and a run in progress, so that the next step runs it (log 5). A pc outside IMEM is brought to word 0. -/
def State.withFetchWord (s : State) (nbits w : Nat) : State :=
  let at' : Half := if s.pc.toNat < s.params.imemWords then s.pc else 0
  { s with pc := at', busy := true }.imemPut at'.toNat (BitVec.ofNat 32 (w % 2 ^ nbits))

end Sys2Proof.Machine
end

