-- ==== Sys2Proof/Machine/Assembler.lean ====
section
/-! DEFINITION. The assembler of 30_encoding.md R102 and R103, from its parsed items: pseudo-instructions, labels, `.word`, and how an
instruction is written. It is no part of the step. -/

namespace Sys2Proof.Machine

/-- The pseudo-instructions of R103; `offset` is the branch offset that CALL's label stands for. -/
inductive Pseudo where
  | from (d a : WReg)
  | fromI (d : WReg) (i : Half)
  | clr (d : WReg)
  | movs (d a : SReg)
  | dec (d : SReg)
  | call (offset : Half)
  | ret
  | lt (a b : WReg)
deriving DecidableEq, Repr

/-- The expansion table of R103. -/
def Pseudo.expand (p : Params) : Pseudo → List Instr
  | .from d a => [.lshl d a (BitVec.ofNat 16 p.SL)]
  | .fromI d i => [.ldi d i, .lshl d d (BitVec.ofNat 16 p.SL)]
  | .clr d => [.ldi d 0]
  | .movs d a => [.saddi d a 0]
  | .dec d => [.saddi d d (-1)]
  | .call offset => [.jal 7 offset]
  | .ret => [.jr 7]
  | .lt a b => [.cmp a b]

/-- The instructions whose target may be a label (R102). -/
inductive LabelUse where
  | bra | beq | bne | blt | bge | bgt | ble
  | jal (d : SReg)
  | call
deriving DecidableEq, Repr

/-- The instruction with its offset filled in. -/
def LabelUse.instr : LabelUse → Half → Instr
  | .bra, o => .bra o
  | .beq, o => .beq o
  | .bne, o => .bne o
  | .blt, o => .blt o
  | .bge, o => .bge o
  | .bgt, o => .bgt o
  | .ble, o => .ble o
  | .jal d, o => .jal d o
  | .call, o => .jal 7 o

/-- One item of an assembly text (R102). -/
inductive AsmItem where
  | instr (i : Instr)
  | pseudo (q : Pseudo)
  | toLabel (u : LabelUse) (target : String)
  | word (v : Word)
  | label (name : String)
deriving DecidableEq, Repr

/-- The IMEM words an item takes. -/
def AsmItem.size (p : Params) : AsmItem → Nat
  | .instr _ => 1
  | .pseudo q => (q.expand p).length
  | .toLabel _ _ => 1
  | .word _ => 1
  | .label _ => 0

/-- The index a label names, for items that begin at IMEM word `at'`. -/
def labelIndex (p : Params) (name : String) : Nat → List AsmItem → Option Nat
  | _, [] => none
  | at', .label l :: rest => if l = name then some at' else labelIndex p name at' rest
  | at', item :: rest => labelIndex p name (at' + item.size p) rest

/-- `target - pc_of_branch`, which "must fit in -32768 to 32767" (R102). -/
def branchOffset (pc target : Nat) : Option Half :=
  let o : Int := (target : Int) - pc
  if -32768 ≤ o ∧ o ≤ 32767 then some (BitVec.ofInt 16 o) else none

/-- The words of one item at index `at'` of the program. -/
def AsmItem.words (p : Params) (program : List AsmItem) (at' : Nat) : AsmItem → Option (List Word)
  | .instr i => some [encode i]
  | .pseudo q => some ((q.expand p).map encode)
  | .toLabel u name =>
    match labelIndex p name 0 program with
    | some target => (branchOffset at' target).map fun o => [encode (u.instr o)]
    | none => none
  | .word v => some [v]
  | .label _ => some []

/-- The words of the items from index `at'` on. -/
def assembleFrom (p : Params) (program : List AsmItem) : Nat → List AsmItem → Option (List Word)
  | _, [] => some []
  | at', item :: rest =>
    match item.words p program at', assembleFrom p program (at' + item.size p) rest with
    | some ws, some more => some (ws ++ more)
    | _, _ => none

/-- The IMEM image of a program, from word 0; none where a label is missing or an offset does not fit (R102). -/
def assemble (p : Params) (program : List AsmItem) : Option (List Word) := assembleFrom p program 0 program

/-! ### How an instruction is written (R102) -/

/-- `W0` to `W7`. -/
def wName (r : WReg) : String := "W" ++ toString r.val

/-- `S0` to `S7`. -/
def sName (r : SReg) : String := "S" ++ toString r.val

/-- `#` and a decimal number. -/
def immText (v : Int) : String := "#" ++ toString v

/-- `off(Sa)`. -/
def memText (a : SReg) (simm : Half) : String := toString simm.toInt ++ "(" ++ sName a ++ ")"

/-- `.+n` or `.-n`. -/
def targetText (simm : Half) : String :=
  if simm.toInt < 0 then "." ++ toString simm.toInt else ".+" ++ toString simm.toInt

/-- The operands in the order d, a, b, immediate, unused fields omitted (R102). -/
def operandTexts : Instr → List String
  | .halt | .nop => []
  | .brk code => [immText code.toNat]
  | .add d a b | .sub d a b | .mul d a b | .div d a b | .fmul d a b | .fdiv d a b => [wName d, wName a, wName b]
  | .neg d a | .abs d a | .isqrt d a | .fsqrt d a | .mov d a => [wName d, wName a]
  | .cmp a b => [wName a, wName b]
  | .tst a => [wName a]
  | .ldi d simm => [wName d, immText simm.toInt]
  | .setl d idx val => [wName d, immText idx.toNat, immText val.toNat]
  | .wfroms d a => [wName d, sName a]
  | .lshl d a k | .lshr d a k | .lsra d a k | .shl d a k | .asr d a k => [wName d, wName a, immText k.toNat]
  | .ldw d a simm | .stw d a simm => [wName d, memText a simm]
  | .lds d a simm | .sts d a simm => [sName d, memText a simm]
  | .sli d imm => [sName d, immText imm.toNat]
  | .saddi d a simm => [sName d, sName a, immText simm.toInt]
  | .sadd d a b | .ssub d a b => [sName d, sName a, sName b]
  | .sshl d a count | .sasr d a count => [sName d, sName a, immText count.toNat]
  | .stst a => [sName a]
  | .scmp a b => [sName a, sName b]
  | .bra simm | .beq simm | .bne simm | .blt simm | .bge simm | .bgt simm | .ble simm => [targetText simm]
  | .jal d simm => [sName d, targetText simm]
  | .jr a => [sName a]

/-- The instruction's line of assembly: the mnemonic, then the operands separated by commas (R102). -/
def asmText (i : Instr) : String :=
  match operandTexts i with
  | [] => i.mnemonic
  | ops => i.mnemonic ++ " " ++ ", ".intercalate ops

end Sys2Proof.Machine
end

