-- ==== Sys2Proof/Safety.lean ====
section
/-! DEFINITION. What claims speak of: which registers and flags each instruction may write (10_state.md R31, R37, R40), which bytes a store
writes, and the invariant of every reachable state. -/

namespace Sys2Proof

/-- The wide register the instruction writes, by the row "write W[d]" of R31. -/
def Instr.wideDest : Instr → Option WReg
  | .add d _ _ | .sub d _ _ | .neg d _ | .abs d _ | .mul d _ _ | .div d _ _ | .isqrt d _ | .fmul d _ _ | .fdiv d _ _
  | .fsqrt d _ | .mov d _ | .ldi d _ | .setl d _ _ | .wfroms d _ | .lshl d _ _ | .lshr d _ _ | .lsra d _ _ | .shl d _ _
  | .asr d _ _ | .ldw d _ _ => some d
  | .halt | .nop | .brk _ | .cmp _ _ | .tst _ | .stw _ _ _ | .lds _ _ _ | .sts _ _ _ | .sli _ _ | .saddi _ _ _ | .sadd _ _ _
  | .ssub _ _ _ | .sshl _ _ _ | .sasr _ _ _ | .stst _ | .scmp _ _ | .bra _ | .beq _ | .bne _ | .blt _ | .bge _ | .bgt _
  | .ble _ | .jal _ _ | .jr _ => none

/-- The scalar register the instruction writes, by the row "write S[d]" of R37. -/
def Instr.scalarDest : Instr → Option SReg
  | .lds d _ _ | .sli d _ | .saddi d _ _ | .sadd d _ _ | .ssub d _ _ | .sshl d _ _ | .sasr d _ _ | .jal d _ => some d
  | .halt | .nop | .brk _ | .add _ _ _ | .sub _ _ _ | .neg _ _ | .abs _ _ | .mul _ _ _ | .div _ _ _ | .isqrt _ _ | .fmul _ _ _
  | .fdiv _ _ _ | .fsqrt _ _ | .cmp _ _ | .tst _ | .mov _ _ | .ldi _ _ | .setl _ _ _ | .wfroms _ _ | .lshl _ _ _ | .lshr _ _ _
  | .lsra _ _ _ | .shl _ _ _ | .asr _ _ _ | .ldw _ _ _ | .stw _ _ _ | .sts _ _ _ | .stst _ | .scmp _ _ | .bra _ | .beq _ | .bne _
  | .blt _ | .bge _ | .bgt _ | .ble _ | .jr _ => none

/-- The four instructions that write the flags (R40). -/
def Instr.writesFlags : Instr → Bool
  | .cmp _ _ | .tst _ | .scmp _ _ | .stst _ => true
  | .halt | .nop | .brk _ | .add _ _ _ | .sub _ _ _ | .neg _ _ | .abs _ _ | .mul _ _ _ | .div _ _ _ | .isqrt _ _ | .fmul _ _ _
  | .fdiv _ _ _ | .fsqrt _ _ | .mov _ _ | .ldi _ _ | .setl _ _ _ | .wfroms _ _ | .lshl _ _ _ | .lshr _ _ _ | .lsra _ _ _
  | .shl _ _ _ | .asr _ _ _ | .ldw _ _ _ | .stw _ _ _ | .lds _ _ _ | .sts _ _ _ | .sli _ _ | .saddi _ _ _ | .sadd _ _ _
  | .ssub _ _ _ | .sshl _ _ _ | .sasr _ _ _ | .bra _ | .beq _ | .bne _ | .blt _ | .bge _ | .bgt _ | .ble _ | .jal _ _ | .jr _ => false

/-- The instruction changes no byte of DMEM: all but STW and STS (47_memory_ops.md). -/
def Instr.storesNothing : Instr → Bool
  | .stw _ _ _ | .sts _ _ _ => false
  | .halt | .nop | .brk _ | .add _ _ _ | .sub _ _ _ | .neg _ _ | .abs _ _ | .mul _ _ _ | .div _ _ _ | .isqrt _ _ | .fmul _ _ _
  | .fdiv _ _ _ | .fsqrt _ _ | .cmp _ _ | .tst _ | .mov _ _ | .ldi _ _ | .setl _ _ _ | .wfroms _ _ | .lshl _ _ _ | .lshr _ _ _
  | .lsra _ _ _ | .shl _ _ _ | .asr _ _ _ | .ldw _ _ _ | .lds _ _ _ | .sli _ _ | .saddi _ _ _ | .sadd _ _ _ | .ssub _ _ _
  | .sshl _ _ _ | .sasr _ _ _ | .stst _ | .scmp _ _ | .bra _ | .beq _ | .bne _ | .blt _ | .bge _ | .bgt _ | .ble _ | .jal _ _
  | .jr _ => true

namespace Machine

/-- At most one of BUSY, DONE and FAULT is 1 (10_state.md R54). -/
def State.statusOk (s : State) : Prop :=
  (s.busy = true → s.done = false ∧ s.faulted = false) ∧ (s.done = true → s.faulted = false)

/-- STATUS.IRQ is set when a run ends and cleared when one starts (R54): it is 1 only after a run ended. -/
def State.irqOk (s : State) : Prop := s.irq = true → s.done = true ∨ s.faulted = true

/-- The FAULT_* registers: of the fault that ended the last run, at the pc the engine shows, or all 0 (R56, R58 to R60). -/
def State.faultOk (s : State) : Prop :=
  if s.faulted then (∃ c : Cause, s.faultCause = c.code) ∧ s.faultPC = s.pc
  else s.faultCause = 0 ∧ s.faultPC = 0 ∧ s.faultInfo = 0

/-- Every wide register's cell holds a W-bit pattern, so every limb is in [0, RADIX-1] (R30, R32). -/
def State.wideOk (s : State) : Prop := ∀ i : WReg, (s.wide.get i).toNat < 2 ^ s.params.W

/-- Both memories are in canonical form and list only addresses that exist (20_memory.md R70). -/
def State.memoryOk (s : State) : Prop :=
  Memory.wf s.imem = true ∧ Memory.below s.params.imemWords s.imem = true ∧
  Memory.wf s.dmem = true ∧ Memory.below s.params.dmemBytes s.dmem = true

/-- The invariant of every state the machine reaches. -/
structure State.Inv (s : State) : Prop where
  /-- The parameters are legal (00_scope.md R7). -/
  params_legal : s.params.legal = true
  /-- At most one of BUSY, DONE and FAULT (R54). -/
  status : s.statusOk
  /-- IRQ only after a run ended (R54). -/
  irq : s.irqOk
  /-- The FAULT_* registers agree with STATUS.FAULT and pc (R58 to R60). -/
  fault : s.faultOk
  /-- Z = N = 1 never occurs (R40). -/
  flags : ¬(s.z = true ∧ s.n = true)
  /-- The wide registers are W-bit patterns (R30, R32). -/
  wide : s.wideOk
  /-- S0's cell is 0 (R36). -/
  scalar_zero : s.scalar.get 0 = 0
  /-- The memories are canonical (R70). -/
  memory : s.memoryOk

/-! ### What one instruction may change -/

/-- From `s` to `t` only wide register `d` and pc changed, and pc advanced by 1: the frame of an instruction that writes `W[d]`. -/
def State.OnlyWide (s t : State) (d : WReg) : Prop :=
  t = { s with wide := t.wide, pc := s.pc + 1 } ∧ ∀ r : WReg, r ≠ d → t.readW r = s.readW r

/-- From `s` to `t` only scalar register `d` and pc changed: the frame of an instruction that writes `S[d]`. -/
def State.OnlyScalar (s t : State) (d : SReg) : Prop :=
  t = { s with scalar := t.scalar, pc := t.pc } ∧ ∀ r : SReg, r ≠ d → t.readS r = s.readS r

/-- From `s` to `t` only the flags and pc changed, and pc advanced by 1. -/
def State.OnlyFlags (s t : State) : Prop := t = { s with z := t.z, n := t.n, pc := s.pc + 1 }

/-- From `s` to `t` only the `n` bytes of DMEM from `a` and pc changed, and pc advanced by 1: the frame of a store. -/
def State.OnlyBytes (s t : State) (a n : Nat) : Prop :=
  t = { s with dmem := t.dmem, pc := s.pc + 1 } ∧ ∀ b : Nat, b < a ∨ a + n ≤ b → t.dmemByte b = s.dmemByte b

/-! ### The closed forms that results are stated against -/

/-- A result fits the W-bit signed range [-2^(W-1), 2^(W-1) - 1] (42_multiply.md R171, R172). -/
def fitsW (p : Params) (v : Int) : Prop := -(2 : Int) ^ (p.W - 1) ≤ v ∧ v < (2 : Int) ^ (p.W - 1)

/-- Byte `j` of a W-bit pattern (20_memory.md R74). -/
def wideByte (x : Wide) (j : Nat) : Byte := BitVec.ofNat 8 (x.toNat / 2 ^ (8 * j))

/-- The seed of 44_sqrt.md R210 from its definition: `RADIX^k <= V < RADIX^(k+1)`, `g0 = 2^ceil(LB*(k+1)/2)`. -/
def exactSeed (p : Params) (v : Nat) : Nat := 2 ^ ((p.LB * (Nat.log p.radix v + 1) + 1) / 2)

/-- The loop of R211 with exact floor divisions. -/
def exactRootLoop (v : Nat) : Nat → Nat → Nat
  | 0, g => g
  | fuel + 1, g => if (g + v / g) / 2 = g then g else exactRootLoop v fuel ((g + v / g) / 2)

/-- `nr_sqrt(V)` of R211 with exact floor divisions ("Both divisions are exact floor divisions of non-negative integers"). -/
def exactRoot (p : Params) (v : Nat) : Nat := exactRootLoop v p.sqrtIters (exactSeed p v)

/-- `r` is floor(sqrt(V)), or one more where V + 1 is a perfect square (44_sqrt.md R214 item 3). -/
def rootOrNext (v : Nat) (r : Int) : Prop :=
  r = (Nat.sqrt v : Int) ∨ (v + 1 = (Nat.sqrt v + 1) ^ 2 ∧ r = (Nat.sqrt v : Int) + 1)

/-- A run ended as a program means it to: at HALT (70_reset_and_hazards.md R363). -/
def State.endedAtHalt (s : State) : Prop := s.busy = false ∧ s.done = true ∧ s.faulted = false

end Machine

end Sys2Proof
end

