-- ==== Sys2Proof/Certificates/Slice0/Obligations.lean ====
section
/-! DEFINITION. The statements for the provers. OBLIGATIONS.json lists each with the rule or the sections of spec/ it rests on. -/

open Sys2Proof Sys2Proof.Machine

/-! ### Encoding -/

/-- Decoding the word of a well-formed instruction gives the instruction back, at every operand value (R91, R92, R98). -/
def Obligations.DecodeEncodeRoundTrip : Prop :=
  ∀ (N : Nat) (i : Instr), i.wellFormed N = true → decode N (encode i) = .ok i

/-- A word that decodes is the word of the instruction it decodes to, and that instruction is well formed: no bit of a legal word is
dropped, and no two instructions share a word. -/
def Obligations.EncodeDecodeRoundTrip : Prop :=
  ∀ (N : Nat) (w : Word) (i : Instr), decode N w = .ok i → encode i = w ∧ i.wellFormed N = true

/-- The decoder is the table look-up of R104: a word that a row spells decodes to that row's mnemonic, but for SETL with idx >= N; a word
that no row spells is illegal. -/
def Obligations.DecodeFollowsOpcodeTable : Prop :=
  ∀ (N : Nat) (w : Word),
    (∀ r ∈ opcodeTable, r.spells w = true → (r.mnemonic = "SETL" → (fieldIdx w).toNat < N) →
      ∃ i, decode N w = .ok i ∧ i.mnemonic = r.mnemonic) ∧
    (∀ r ∈ opcodeTable, r.spells w = true → r.mnemonic = "SETL" → N ≤ (fieldIdx w).toNat →
      decode N w = .error .limbIndex) ∧
    ((∀ r ∈ opcodeTable, r.spells w = false) →
      decode N w = .error .reservedOpcode ∨ decode N w = .error .nonzeroField)

/-- No word is spelled by two rows of the opcode table (R104). -/
def Obligations.OpcodeRowsDoNotOverlap : Prop :=
  ∀ r₁ ∈ opcodeTable, ∀ r₂ ∈ opcodeTable, ∀ w : Word, r₁.spells w = true → r₂.spells w = true → r₁ = r₂

/-- Words written out from the encodings of R98 decode to the instructions they stand for, and illegal words to none (R99). -/
def Obligations.SampleWordsDecode : Prop :=
  decode 4 0x10A60000#32 = .ok (.add 1 2 3) ∧ decode 4 0x89C0FFFE#32 = .ok (.lds 3 4 0xFFFE#16) ∧
  decode 4 0xDF800004#32 = .ok (.jal 7 4#16) ∧ decode 4 0x4A800380#32 = .ok (.setl 5 3 0x80#8) ∧
  decode 4 0x00000000#32 = .error .reservedOpcode ∧ decode 4 0x10A70000#32 = .error .nonzeroField ∧
  decode 4 0x48800400#32 = .error .limbIndex

/-- The assembler's words: every instruction that a pseudo-instruction of R103 expands to is encoded as written, FROM and FROMI shifting by
SL limbs. -/
def Obligations.PseudoInstructionsExpand : Prop :=
  ∀ p : Params, p.legal = true → ∀ (d a b : Fin 8) (i o : Half),
    assemble p [.pseudo (.from d a)] = some [encode (.lshl d a (BitVec.ofNat 16 p.SL))] ∧
    assemble p [.pseudo (.fromI d i)] = some [encode (.ldi d i), encode (.lshl d d (BitVec.ofNat 16 p.SL))] ∧
    assemble p [.pseudo (.clr d)] = some [encode (.ldi d 0)] ∧
    assemble p [.pseudo (.movs d a)] = some [encode (.saddi d a 0)] ∧
    assemble p [.pseudo (.dec d)] = some [encode (.saddi d d (BitVec.ofInt 16 (-1)))] ∧
    assemble p [.pseudo (.call o)] = some [encode (.jal 7 o)] ∧
    assemble p [.pseudo .ret] = some [encode (.jr 7)] ∧
    assemble p [.pseudo (.lt a b)] = some [encode (.cmp a b)]

/-! ### The step -/

/-- A step of a run executes the decoded instruction, and then the outside takes its turn (R299, R336). With nothing waiting outside the step
is the instruction alone. That one event from outside follows each instruction is the model's choice (log 6). -/
def Obligations.StepRunsDecodedInstruction : Prop :=
  ∀ (s t : State) (i : Instr), s.params.legal = true → s.busy = true → s.pc.toNat < s.params.imemWords →
    decode s.params.N (s.imemWord s.pc.toNat) = .ok i → exec i s = .next t →
    step s = .next t.hostTurn ∧ (t.hostQueue = [] → step s = .next t)

/-- The fetch's and the decoder's faults, BADPC first (R334, R327, R335). What arrives from outside follows (log 6). -/
def Obligations.StepFetchFaults : Prop :=
  ∀ s : State, s.params.legal = true → s.busy = true →
    (s.params.imemWords ≤ s.pc.toNat → step s = .next (s.raiseFault .badPC (s.pc.zeroExtend 32)).hostTurn) ∧
    (s.pc.toNat < s.params.imemWords → (∀ i, decode s.params.N (s.imemWord s.pc.toNat) ≠ .ok i) →
      step s = .next (s.raiseFault .illegal (s.imemWord s.pc.toNat)).hostTurn)

/-- While idle the engine keeps all state, and only what arrives from outside, one event a step (log 6), changes it (R346). In every step,
of an idle engine or of a run, the outside's turn is that event: `quiet` changes nothing, a read puts what R80 to R85 return into busData
(log 7) and changes nothing else, a write is the host's write, and a hardware reset is R360's. -/
def Obligations.IdleEngineWaits : Prop :=
  (∀ s : State, s.params.legal = true → s.busy = false → step s = .next s.hostTurn ∧ (s.hostQueue = [] → step s = .next s)) ∧
  ∀ (s : State) (rest : List HostEvent) (offset : BitVec 20) (data : Word),
    let t : State := { s with hostQueue := rest }
    (s.hostQueue = [] → s.hostTurn = s) ∧
    (s.hostQueue = .quiet :: rest → s.hostTurn = t) ∧
    (s.hostQueue = .read offset :: rest → s.hostTurn = { t with busData := s.hostRead offset }) ∧
    (s.hostQueue = .write offset data :: rest → s.hostTurn = t.hostWrite offset data) ∧
    (s.hostQueue = .hardReset :: rest → s.hostTurn = t.hardReset)

/-- A step always has a next state, whatever the program and whatever the outside does: no instruction stops the machine with no state
(R320 to R325: a fault is a recorded end of the run). -/
def Obligations.StepAlwaysAnswersNext : Prop :=
  ∀ s : State, s.params.legal = true → ∃ t, step s = .next t

/-- Fault entry (R323): a sequencer step that raises a fault writes nothing but the cause, the pc, the information and STATUS. -/
def Obligations.FaultEntryIsPrecise : Prop :=
  ∀ s t : State, s.faulted = false → engineStep s = .next t → t.faulted = true →
    ∃ (c : Cause) (info : Word),
      t = { s with faultCause := c.code, faultPC := s.pc, faultInfo := info, busy := false, faulted := true, irq := true }

/-- FAULT_INFO of the arithmetic faults (R322): d, a, b and the shift in their fields, all other bits 0. -/
def Obligations.ArithmeticFaultInfoLayout : Prop :=
  ∀ (d a b : WReg) (p : Params), p.legal = true →
    let w := arithInfo d a b p.FB
    bits w 2 0 = d.val ∧ bits w 5 3 = a.val ∧ bits w 8 6 = b.val ∧ bits w 15 9 = 0 ∧ bits w 23 16 = p.FB ∧ bits w 31 24 = 0

/-! ### What instructions leave unchanged -/

/-- Of the wide registers an instruction writes only the one R31 names. -/
def Obligations.WideWritesFollowTable : Prop :=
  ∀ (i : Instr) (s t : State) (r : WReg), exec i s = .next t → i.wideDest ≠ some r → t.readW r = s.readW r

/-- Of the scalar registers an instruction writes only the one R37 names, and S0 reads 0 after every instruction (R36). -/
def Obligations.ScalarWritesFollowTable : Prop :=
  ∀ (i : Instr) (s t : State), exec i s = .next t →
    (∀ r : SReg, i.scalarDest ≠ some r → t.readS r = s.readS r) ∧ t.readS 0 = 0

/-- Only STW and STS change DMEM, and they only the bytes of their access (R71 to R73). -/
def Obligations.OnlyStoresChangeDmem : Prop :=
  ∀ (i : Instr) (s t : State), exec i s = .next t →
    (i.storesNothing = true → ∀ b, t.dmemByte b = s.dmemByte b) ∧
    (∀ d a simm, i = .stw d a simm → ∀ b, b < (s.effAddr a simm).toNat ∨ (s.effAddr a simm).toNat + s.params.wideBytes ≤ b →
      t.dmemByte b = s.dmemByte b) ∧
    (∀ d a simm, i = .sts d a simm → ∀ b, b < (s.effAddr a simm).toNat ∨ (s.effAddr a simm).toNat + 2 ≤ b →
      t.dmemByte b = s.dmemByte b)

/-- No instruction writes IMEM, a parameter, START_PC or IRQ_EN, or takes anything from the outside's queue (R71, R89, R299). -/
def Obligations.InstructionsKeepHostState : Prop :=
  ∀ (i : Instr) (s t : State), exec i s = .next t →
    (∀ k, t.imemWord k = s.imemWord k) ∧ t.params = s.params ∧ t.startPC = s.startPC ∧ t.irqEn = s.irqEn ∧
    t.hostQueue = s.hostQueue ∧ t.busData = s.busData

/-- A run goes on, STATUS and the FAULT_* registers unchanged, through every instruction but HALT and those that fault (R363). -/
def Obligations.RunEndsOnlyAtHaltOrFault : Prop :=
  ∀ (i : Instr) (s t : State), s.faulted = false → exec i s = .next t → t.faulted = false → i ≠ .halt →
    t.busy = s.busy ∧ t.done = s.done ∧ t.irq = s.irq ∧ t.faultCause = s.faultCause ∧ t.faultPC = s.faultPC ∧
    t.faultInfo = s.faultInfo

/-! ### System and control -/

/-- HALT, NOP and BRK (R296 to R298). -/
def Obligations.SystemInstructionResults : Prop :=
  ∀ (s : State) (code : Half),
    exec .halt s = .next { s with busy := false, done := true, irq := true } ∧
    exec .nop s = .next { s with pc := s.pc + 1 } ∧
    exec (.brk code) s = .next { s with
      faultCause := 0x08, faultPC := s.pc, faultInfo := code.zeroExtend 32, busy := false, faulted := true, irq := true }

/-- BRA, JAL and JR (R290, R291, R293, R294): the target is pc + simm modulo 2^16, or the register; JAL's link is the next index. -/
def Obligations.JumpResults : Prop :=
  ∀ (s : State) (simm : Half) (d a : SReg),
    (∃ t, exec (.bra simm) s = .next t ∧ t = { s with pc := t.pc } ∧ (t.pc.toNat : Int) = (s.pc.toNat + simm.toInt) % 65536) ∧
    (∃ t, exec (.jal d simm) s = .next t ∧ s.OnlyScalar t d ∧ (t.pc.toNat : Int) = (s.pc.toNat + simm.toInt) % 65536 ∧
      (t.readS d).toNat = if d = 0 then 0 else (s.pc.toNat + 1) % 65536) ∧
    (∃ t, exec (.jr a) s = .next t ∧ t = { s with pc := s.readS a })

/-- The six conditional branches (R292): taken by the table's condition on Z and N, else the next instruction; nothing else changes. -/
def Obligations.ConditionalBranchResults : Prop :=
  ∀ (s : State) (simm : Half),
    let taken : State := { s with pc := BitVec.ofInt 16 (s.pc.toNat + simm.toInt) }
    let next : State := { s with pc := s.pc + 1 }
    exec (.beq simm) s = .next (if s.z = true then taken else next) ∧
    exec (.bne simm) s = .next (if s.z = false then taken else next) ∧
    exec (.blt simm) s = .next (if s.n = true then taken else next) ∧
    exec (.bge simm) s = .next (if s.n = false then taken else next) ∧
    exec (.bgt simm) s = .next (if s.z = false ∧ s.n = false then taken else next) ∧
    exec (.ble simm) s = .next (if s.z = true ∨ s.n = true then taken else next)

/-! ### Flags -/

/-- Only CMP, TST, SCMP and STST write the flags, each both, by the table of R40; Z and N are then never both 1. -/
def Obligations.FlagsFollowTable : Prop :=
  (∀ (s : State) (a b : WReg), s.params.legal = true →
    ∃ t, exec (.cmp a b) s = .next t ∧ s.OnlyFlags t ∧ ¬(t.z = true ∧ t.n = true) ∧
      (t.z = true ↔ sval s.params (s.readW a) = sval s.params (s.readW b)) ∧
      (t.n = true ↔ sval s.params (s.readW a) < sval s.params (s.readW b))) ∧
  (∀ (s : State) (a : WReg), s.params.legal = true →
    ∃ t, exec (.tst a) s = .next t ∧ s.OnlyFlags t ∧ ¬(t.z = true ∧ t.n = true) ∧
      (t.z = true ↔ uval s.params (s.readW a) = 0) ∧ (t.n = true ↔ sval s.params (s.readW a) < 0)) ∧
  (∀ (s : State) (a b : SReg),
    ∃ t, exec (.scmp a b) s = .next t ∧ s.OnlyFlags t ∧ ¬(t.z = true ∧ t.n = true) ∧
      (t.z = true ↔ (s.readS a).toInt = (s.readS b).toInt) ∧ (t.n = true ↔ (s.readS a).toInt < (s.readS b).toInt)) ∧
  (∀ (s : State) (a : SReg),
    ∃ t, exec (.stst a) s = .next t ∧ s.OnlyFlags t ∧ ¬(t.z = true ∧ t.n = true) ∧
      (t.z = true ↔ s.readS a = 0) ∧ (t.n = true ↔ (s.readS a).toInt < 0)) ∧
  (∀ (i : Instr) (s t : State), i.writesFlags = false → exec i s = .next t → t.z = s.z ∧ t.n = s.n)

/-! ### Limb vectors -/

/-- WFROMS, LDI and MOV (R123 to R125): the signed value is the scalar's, the immediate's or the source's. -/
def Obligations.ConstructionResults : Prop :=
  ∀ (s : State) (d a : Fin 8) (simm : Half), s.params.legal = true →
    (∃ t, exec (.wfroms d a) s = .next t ∧ s.OnlyWide t d ∧ sval s.params (t.readW d) = (s.readS a).toInt) ∧
    (∃ t, exec (.ldi d simm) s = .next t ∧ s.OnlyWide t d ∧ sval s.params (t.readW d) = simm.toInt) ∧
    (∃ t, exec (.mov d a) s = .next t ∧ s.OnlyWide t d ∧ t.readW d = s.readW a)

/-- SETL (R126): limb idx becomes val and the others keep their values; an index past the top raises ILLEGAL and a value of RADIX or more
LIMB_RANGE, with the word as FAULT_INFO. -/
def Obligations.SetlResult : Prop :=
  ∀ (s : State) (d : WReg) (idx val : Byte), s.params.legal = true →
    (idx.toNat < s.params.N → val.toNat < s.params.radix →
      ∃ t, exec (.setl d idx val) s = .next t ∧ s.OnlyWide t d ∧
        ∀ i < s.params.N, limb s.params (t.readW d) i = if i = idx.toNat then val.toNat else limb s.params (s.readW d) i) ∧
    (idx.toNat < s.params.N → s.params.radix ≤ val.toNat →
      exec (.setl d idx val) s = .next (s.raiseFault .limbRange (encode (.setl d idx val)))) ∧
    (s.params.N ≤ idx.toNat →
      exec (.setl d idx val) s = .next (s.raiseFault .illegal (encode (.setl d idx val))))

/-- NEG and ABS (R120, R127, R128): the limb negator gives enc_W of the negated value; ABS of MIN is MIN. -/
def Obligations.NegAbsResults : Prop :=
  ∀ (s : State) (d a : WReg), s.params.legal = true →
    (∃ t, exec (.neg d a) s = .next t ∧ s.OnlyWide t d ∧ t.readW d = encW s.params (-(sval s.params (s.readW a)))) ∧
    (∃ t, exec (.abs d a) s = .next t ∧ s.OnlyWide t d ∧ t.readW d = encW s.params |sval s.params (s.readW a)|)

/-- SHL and ASR (R130, R131): the unsigned value times 2^n modulo 2^W, and the signed value over 2^n rounded toward negative infinity, at
every count from 0 to 65535. -/
def Obligations.WideBitShiftResults : Prop :=
  ∀ (s : State) (d a : WReg) (count : Half), s.params.legal = true →
    (∃ t, exec (.shl d a count) s = .next t ∧ s.OnlyWide t d ∧
      uval s.params (t.readW d) = uval s.params (s.readW a) * 2 ^ count.toNat % 2 ^ s.params.W) ∧
    (∃ t, exec (.asr d a count) s = .next t ∧ s.OnlyWide t d ∧
      sval s.params (t.readW d) = sval s.params (s.readW a) / 2 ^ count.toNat)

/-- ADD and SUB (R150, R151, R153): the limb adder gives the sum and the difference modulo 2^W. -/
def Obligations.AddSubResults : Prop :=
  ∀ (s : State) (d a b : WReg), s.params.legal = true →
    (∃ t, exec (.add d a b) s = .next t ∧ s.OnlyWide t d ∧
      t.readW d = encW s.params ((uval s.params (s.readW a) : Int) + uval s.params (s.readW b))) ∧
    (∃ t, exec (.sub d a b) s = .next t ∧ s.OnlyWide t d ∧
      t.readW d = encW s.params ((uval s.params (s.readW a) : Int) - uval s.params (s.readW b)))

/-- LSHL, LSHR and LSRA (R231 to R233): a shift of k limbs is a product or a floor quotient by RADIX^k, at every count. -/
def Obligations.LimbShiftResults : Prop :=
  ∀ (s : State) (d a : WReg) (k : Half), s.params.legal = true →
    (∃ t, exec (.lshl d a k) s = .next t ∧ s.OnlyWide t d ∧
      t.readW d = encW s.params (uval s.params (s.readW a) * s.params.radix ^ k.toNat)) ∧
    (∃ t, exec (.lshr d a k) s = .next t ∧ s.OnlyWide t d ∧
      uval s.params (t.readW d) = uval s.params (s.readW a) / s.params.radix ^ k.toNat) ∧
    (∃ t, exec (.lsra d a k) s = .next t ∧ s.OnlyWide t d ∧
      t.readW d = encW s.params (sval s.params (s.readW a) / s.params.radix ^ min k.toNat s.params.N))

/-- The laws of R132 and R154: double negation, the absolute value of the negation, and sums that differences undo, on W-bit patterns. -/
def Obligations.NegationAndAdditionLaws : Prop :=
  ∀ (p : Params) (x y : Wide), p.legal = true → x.toNat < 2 ^ p.W → y.toNat < 2 ^ p.W →
    neg p (neg p x) = x ∧
    (if isneg p x then neg p x else x) = (if isneg p (neg p x) then neg p (neg p x) else neg p x) ∧
    add p (add p x y) (neg p y) = x ∧ add p (add p x (neg p y)) y = x

/-- The laws of R235: shifts add their counts, the two right shifts agree on non-negative values, and LSRA undoes LSHL exactly when the value
fits in W - k*LB signed bits. -/
def Obligations.LimbShiftLaws : Prop :=
  ∀ (p : Params) (x : Wide) (j k : Nat), p.legal = true → x.toNat < 2 ^ p.W →
    let fill := fun y : Wide => if isneg p y then p.radix - 1 else 0
    let lsra := fun (y : Wide) (n : Nat) => shiftLimbsRight p y n (fill y)
    shiftLimbsLeft p (shiftLimbsLeft p x j) k = shiftLimbsLeft p x (j + k) ∧
    shiftLimbsRight p (shiftLimbsRight p x j 0) k 0 = shiftLimbsRight p x (j + k) 0 ∧
    lsra (lsra x j) k = lsra x (j + k) ∧
    (isneg p x = false → lsra x k = shiftLimbsRight p x k 0) ∧
    (k < p.N → (lsra (shiftLimbsLeft p x k) k = x ↔
      -(2 : Int) ^ (p.W - 1 - k * p.LB) ≤ sval p x ∧ sval p x < (2 : Int) ^ (p.W - 1 - k * p.LB))) ∧
    (k = p.N → (lsra (shiftLimbsLeft p x k) k = x ↔ x = 0))

/-! ### Multiply and divide -/

/-- The schoolbook multiplier gives the exact product (R170). -/
def Obligations.SchoolbookMultiplierIsExact : Prop :=
  ∀ (p : Params) (x y : Nat), p.legal = true → x < 2 ^ p.W → y < 2 ^ p.W → mulmag p x y = x * y

/-- MUL (R172): the exact signed product, or OVERFLOW exactly when it does not fit. -/
def Obligations.MulResult : Prop :=
  ∀ (s : State) (d a b : WReg), s.params.legal = true →
    let v := sval s.params (s.readW a) * sval s.params (s.readW b)
    (fitsW s.params v → ∃ t, exec (.mul d a b) s = .next t ∧ s.OnlyWide t d ∧ sval s.params (t.readW d) = v) ∧
    (¬fitsW s.params v → exec (.mul d a b) s = .next (s.raiseFault .overflow (arithInfo d a b 0)))

/-- FMUL (R173): the product over 2^FB rounded toward zero, or OVERFLOW exactly when that does not fit. -/
def Obligations.FmulResult : Prop :=
  ∀ (s : State) (d a b : WReg), s.params.legal = true →
    let v := (sval s.params (s.readW a) * sval s.params (s.readW b)).tdiv (2 ^ s.params.FB)
    (fitsW s.params v → ∃ t, exec (.fmul d a b) s = .next t ∧ s.OnlyWide t d ∧ sval s.params (t.readW d) = v) ∧
    (¬fitsW s.params v → exec (.fmul d a b) s = .next (s.raiseFault .overflow (arithInfo d a b s.params.FB)))

/-- Algorithm D gives the floor quotient and the remainder (R190). -/
def Obligations.AlgorithmDIsFloorDivision : Prop :=
  ∀ (p : Params) (u ulen v : Nat), p.legal = true → u < p.radix ^ ulen → 1 ≤ v → v < p.radix ^ p.N →
    divmag p u ulen v = (u / v, u % v)

/-- DIV (R192, R195): DIVZERO first; then the quotient rounded toward zero, or OVERFLOW exactly when it does not fit, which only MIN / -1
does. -/
def Obligations.DivResult : Prop :=
  ∀ (s : State) (d a b : WReg), s.params.legal = true →
    let x := sval s.params (s.readW a)
    let y := sval s.params (s.readW b)
    (y = 0 → exec (.div d a b) s = .next (s.raiseFault .divZero (arithInfo d a b 0))) ∧
    (y ≠ 0 → ¬(x = -(2 : Int) ^ (s.params.W - 1) ∧ y = -1) →
      ∃ t, exec (.div d a b) s = .next t ∧ s.OnlyWide t d ∧ sval s.params (t.readW d) = x.tdiv y) ∧
    (x = -(2 : Int) ^ (s.params.W - 1) → y = -1 →
      exec (.div d a b) s = .next (s.raiseFault .overflow (arithInfo d a b 0)))

/-- FDIV (R193, R195): DIVZERO first; then the widened quotient rounded toward zero, or OVERFLOW exactly when it does not fit. -/
def Obligations.FdivResult : Prop :=
  ∀ (s : State) (d a b : WReg), s.params.legal = true →
    let y := sval s.params (s.readW b)
    let v := (sval s.params (s.readW a) * 2 ^ s.params.FB).tdiv y
    (y = 0 → exec (.fdiv d a b) s = .next (s.raiseFault .divZero (arithInfo d a b s.params.FB))) ∧
    (y ≠ 0 → fitsW s.params v →
      ∃ t, exec (.fdiv d a b) s = .next t ∧ s.OnlyWide t d ∧ sval s.params (t.readW d) = v) ∧
    (y ≠ 0 → ¬fitsW s.params v →
      exec (.fdiv d a b) s = .next (s.raiseFault .overflow (arithInfo d a b s.params.FB)))

/-! ### Square root -/

/-- ISQRT and FSQRT (R210 to R213): DOMAIN for a negative operand, 0 for 0, and otherwise the Newton-Raphson root with exact floor divisions,
of the operand or of the operand times 2^FB. -/
def Obligations.SqrtResults : Prop :=
  ∀ (s : State) (d a : WReg), s.params.legal = true →
    let x := sval s.params (s.readW a)
    (x < 0 → exec (.isqrt d a) s = .next (s.raiseFault .domain (arithInfo d a 0 0)) ∧
      exec (.fsqrt d a) s = .next (s.raiseFault .domain (arithInfo d a 0 s.params.FB))) ∧
    (x = 0 → (∃ t, exec (.isqrt d a) s = .next t ∧ s.OnlyWide t d ∧ t.readW d = 0) ∧
      ∃ t, exec (.fsqrt d a) s = .next t ∧ s.OnlyWide t d ∧ t.readW d = 0) ∧
    (0 < x → (∃ t, exec (.isqrt d a) s = .next t ∧ s.OnlyWide t d ∧
        sval s.params (t.readW d) = exactRoot s.params x.toNat) ∧
      ∃ t, exec (.fsqrt d a) s = .next t ∧ s.OnlyWide t d ∧
        sval s.params (t.readW d) = exactRoot s.params (x.toNat * 2 ^ s.params.FB))

/-- The seed is R210's and every root the engine forms lies between floor(sqrt(V)) and it, whatever SQRT_ITERS is; the seed's square is above V
and the seed fits (the spec's own inference, R214 items 1 and 2). -/
def Obligations.SqrtResultInRange : Prop :=
  ∀ (p : Params) (v : Nat), p.legal = true → 1 ≤ v → v < p.radix ^ (p.N + p.SL) →
    sqrtSeed p v = exactSeed p v ∧ Nat.sqrt v ≤ nrSqrt p v ∧ nrSqrt p v ≤ sqrtSeed p v ∧ sqrtSeed p v < 2 ^ (p.W - 1) ∧
    v < sqrtSeed p v ^ 2

/-- At the reference parameters with SQRT_ITERS >= 10, ISQRT writes floor(sqrt(V)) and FSQRT floor(sqrt(V * 2^16)), but where the radicand plus
1 is a perfect square, where the register may hold one more (the spec's own inference, R214 item 3). -/
def Obligations.SqrtConvergesAtReference : Prop :=
  ∀ (s : State) (d a : WReg) (k : Nat), 10 ≤ k → k ≤ 255 → s.params = { Params.reference with sqrtIters := k } →
    0 < sval s.params (s.readW a) →
    let v := (sval s.params (s.readW a)).toNat
    (∃ t, exec (.isqrt d a) s = .next t ∧ s.OnlyWide t d ∧ rootOrNext v (sval s.params (t.readW d))) ∧
    ∃ t, exec (.fsqrt d a) s = .next t ∧ s.OnlyWide t d ∧ rootOrNext (v * 2 ^ 16) (sval s.params (t.readW d))

/-! ### Scalars -/

/-- SLI, SADDI, SADD and SSUB (R250 to R253): sums and differences modulo 2^16; a write to S0 is discarded. -/
def Obligations.ScalarArithmeticResults : Prop :=
  ∀ (s : State) (d a b : SReg) (imm : Half),
    (∃ t, exec (.sli d imm) s = .next t ∧ s.OnlyScalar t d ∧ t.pc = s.pc + 1 ∧ t.readS d = if d = 0 then 0 else imm) ∧
    (∃ t, exec (.saddi d a imm) s = .next t ∧ s.OnlyScalar t d ∧ t.pc = s.pc + 1 ∧
      ((t.readS d).toNat : Int) = if d = 0 then 0 else ((s.readS a).toNat + imm.toInt) % 65536) ∧
    (∃ t, exec (.sadd d a b) s = .next t ∧ s.OnlyScalar t d ∧ t.pc = s.pc + 1 ∧
      (t.readS d).toNat = if d = 0 then 0 else ((s.readS a).toNat + (s.readS b).toNat) % 65536) ∧
    (∃ t, exec (.ssub d a b) s = .next t ∧ s.OnlyScalar t d ∧ t.pc = s.pc + 1 ∧
      ((t.readS d).toNat : Int) = if d = 0 then 0 else ((s.readS a).toNat - (s.readS b).toNat : Int) % 65536)

/-- SSHL and SASR (R254, R255): the unsigned value times 2^n modulo 2^16, and the signed value over 2^n rounded toward negative infinity, at
every count; a write to S0 is discarded. -/
def Obligations.ScalarShiftResults : Prop :=
  ∀ (s : State) (d a : SReg) (count : Half),
    (∃ t, exec (.sshl d a count) s = .next t ∧ s.OnlyScalar t d ∧ t.pc = s.pc + 1 ∧
      (t.readS d).toNat = if d = 0 then 0 else (s.readS a).toNat * 2 ^ count.toNat % 65536) ∧
    (∃ t, exec (.sasr d a count) s = .next t ∧ s.OnlyScalar t d ∧ t.pc = s.pc + 1 ∧
      (t.readS d).toInt = if d = 0 then 0 else (s.readS a).toInt / 2 ^ count.toNat)

/-- The source's bit-at-a-time loops give exactly SSHL's and SASR's results, for every value and every count (R258). -/
def Obligations.ShiftLoopsAgree : Prop :=
  ∀ (x : Half) (n : Nat),
    scalarShiftLeft x n = doublingLoop n x ∧ scalarShiftRight x n = BitVec.ofInt 16 (halvingLoop n x.toInt)

/-! ### Memory -/

/-- LDW and LDS (R270 to R273, R72): the register gets the bytes at EA, little-endian, or BADADDR with EA where the access leaves DMEM. -/
def Obligations.LoadResults : Prop :=
  ∀ (s : State) (d a : Fin 8) (simm : Half), s.params.legal = true →
    let ea := BitVec.ofInt 16 ((s.readS a).toNat + simm.toInt)
    (ea.toNat + s.params.wideBytes ≤ s.params.dmemBytes →
      ∃ t, exec (.ldw d a simm) s = .next t ∧ s.OnlyWide t d ∧
        ∀ j < s.params.wideBytes, wideByte (t.readW d) j = s.dmemByte (ea.toNat + j)) ∧
    (s.params.dmemBytes < ea.toNat + s.params.wideBytes →
      exec (.ldw d a simm) s = .next (s.raiseFault .badAddr (ea.zeroExtend 32))) ∧
    (ea.toNat + 2 ≤ s.params.dmemBytes →
      ∃ t, exec (.lds d a simm) s = .next t ∧ s.OnlyScalar t d ∧ t.pc = s.pc + 1 ∧
        t.readS d = if d = 0 then 0 else s.dmemByte (ea.toNat + 1) ++ s.dmemByte ea.toNat) ∧
    (s.params.dmemBytes < ea.toNat + 2 →
      exec (.lds d a simm) s = .next (s.raiseFault .badAddr (ea.zeroExtend 32)))

/-- STW and STS (R270, R272 to R274, R73): the bytes at EA become the register's, little-endian, and no other byte changes; or BADADDR with EA,
and no byte changes, where the access leaves DMEM. -/
def Obligations.StoreResults : Prop :=
  ∀ (s : State) (d a : Fin 8) (simm : Half), s.params.legal = true →
    let ea := BitVec.ofInt 16 ((s.readS a).toNat + simm.toInt)
    (ea.toNat + s.params.wideBytes ≤ s.params.dmemBytes →
      ∃ t, exec (.stw d a simm) s = .next t ∧ s.OnlyBytes t ea.toNat s.params.wideBytes ∧
        ∀ j < s.params.wideBytes, t.dmemByte (ea.toNat + j) = wideByte (s.readW d) j) ∧
    (s.params.dmemBytes < ea.toNat + s.params.wideBytes →
      exec (.stw d a simm) s = .next (s.raiseFault .badAddr (ea.zeroExtend 32))) ∧
    (ea.toNat + 2 ≤ s.params.dmemBytes →
      ∃ t, exec (.sts d a simm) s = .next t ∧ s.OnlyBytes t ea.toNat 2 ∧
        t.dmemByte (ea.toNat + 1) ++ t.dmemByte ea.toNat = s.readS d) ∧
    (s.params.dmemBytes < ea.toNat + 2 →
      exec (.sts d a simm) s = .next (s.raiseFault .badAddr (ea.zeroExtend 32)))

/-- A load returns the last store to its bytes (R86), at both widths and across them (R75). After STW, LDW gives the value back and LDS there
its bits [15:0]. After STS, LDS gives the value back. After STS at EA and STS at EA + 2, LDW at EA reads their concatenation, the lower
address less significant: all of its W bits where W is at most 32, its low 32 bits where it is more. -/
def Obligations.StoreThenLoad : Prop :=
  (∀ (s : State) (d d' a : Fin 8) (simm : Half), s.params.legal = true →
    (s.effAddr a simm).toNat + s.params.wideBytes ≤ s.params.dmemBytes →
    ∃ t u v, exec (.stw d a simm) s = .next t ∧
      exec (.ldw d' a simm) t = .next u ∧ u.readW d' = s.readW d ∧
      exec (.lds d' a simm) t = .next v ∧ v.readS d' = if d' = 0 then 0 else (s.readW d).setWidth 16) ∧
  (∀ (s : State) (d d' a : SReg) (simm : Half), s.params.legal = true →
    (s.effAddr a simm).toNat + 2 ≤ s.params.dmemBytes →
    ∃ t u, exec (.sts d a simm) s = .next t ∧
      exec (.lds d' a simm) t = .next u ∧ u.readS d' = if d' = 0 then 0 else s.readS d) ∧
  ∀ (s : State) (lo hi a : SReg) (d : WReg) (simm : Half), s.params.legal = true →
    (s.effAddr a simm).toNat + 4 ≤ s.params.dmemBytes →
    (s.effAddr a simm).toNat + s.params.wideBytes ≤ s.params.dmemBytes →
    ∃ t u v, exec (.sts lo a simm) s = .next t ∧ exec (.sts hi a (simm + 2)) t = .next u ∧ exec (.ldw d a simm) u = .next v ∧
      (v.readW d).toNat % 2 ^ 32 = ((s.readS lo).toNat + 2 ^ 16 * (s.readS hi).toNat) % 2 ^ s.params.W

/-! ### Invariants -/

/-- The invariant holds at reset. -/
def Obligations.ResetMeetsInvariant : Prop := State.reset.Inv

/-- Every step keeps the invariant, whatever the program does and whatever the host does between its instructions: legal parameters, at
most one of BUSY, DONE and FAULT, IRQ only after a run, FAULT_* registers that describe the last run, never Z = N = 1, W-bit wide
registers, S0 = 0, canonical memories inside their bounds. -/
def Obligations.StepKeepsInvariant : Prop := ∀ s t : State, s.Inv → step s = .next t → t.Inv

/-- No step changes the parameters. -/
def Obligations.StepKeepsParameters : Prop := ∀ s t : State, step s = .next t → t.params = s.params

/-! ### Reset, runs and the host window -/

/-- The hardware reset (R360): every register, flag and status bit 0 and the engine idle, the constants of ID, CFG and CFG2 and both memories
unchanged; and State.reset is such a state. -/
def Obligations.HardwareResetState : Prop :=
  ∀ s t : State, t = s.hardReset ∨ (s = State.reset ∧ t = State.reset) →
    (∀ i, t.readW i = 0) ∧ (∀ i, t.readS i = 0) ∧ t.z = false ∧ t.n = false ∧ t.pc = 0 ∧ t.irqEn = false ∧
    t.busy = false ∧ t.done = false ∧ t.faulted = false ∧ t.irq = false ∧ t.irqLine = false ∧ t.startPC = 0 ∧
    t.faultCause = 0 ∧ t.faultPC = 0 ∧ t.faultInfo = 0 ∧ t.params = s.params ∧
    (∀ k, t.imemWord k = s.imemWord k) ∧ (∀ a, t.dmemByte a = s.dmemByte a)

/-- A CTRL write with SRESET (R53, R361): the soft reset, at any time, whatever START says; the IRQ_EN bit is stored and the memories kept. -/
def Obligations.SoftResetByHost : Prop :=
  ∀ (s : State) (data : Word), data.getLsbD 1 = true →
    s.hostWrite 0x10 data = { State.reset with
      params := s.params, irqEn := data.getLsbD 2, imem := s.imem, dmem := s.dmem, hostQueue := s.hostQueue, busData := s.busData }

/-- A CTRL write with START and without SRESET (R53, R362): a run begins if the engine is idle, and nothing but IRQ_EN changes if it is
not. -/
def Obligations.StartByHost : Prop :=
  ∀ (s : State) (data : Word), data.getLsbD 1 = false → data.getLsbD 0 = true →
    (s.busy = false → s.hostWrite 0x10 data = { s with
      pc := s.startPC, done := false, faulted := false, irq := false, faultCause := 0, faultPC := 0, faultInfo := 0,
      busy := true, irqEn := data.getLsbD 2 }) ∧
    (s.busy = true → s.hostWrite 0x10 data = { s with irqEn := data.getLsbD 2 })

/-- The busy lockout of the windows (R85): during a run every offset from 0x00040 on reads 0 and ignores writes. -/
def Obligations.WindowsLockedWhileBusy : Prop :=
  ∀ (s : State) (offset : BitVec 20) (data : Word), s.busy = true → 0x40 ≤ offset.toNat →
    s.hostRead offset = 0 ∧ s.hostWrite offset data = s

/-- The busy lockout of the control registers (R49); STATUS shows BUSY = 1 in bit 0 during a run (R54). -/
def Obligations.ControlRegistersWhileBusy : Prop :=
  ∀ (s : State) (data : Word), s.busy = true →
    s.hostRead 0x00 = Params.idWord s.params ∧ s.hostRead 0x04 = Params.cfgWord s.params ∧
    s.hostRead 0x08 = Params.cfg2Word s.params ∧ s.hostRead 0x14 = s.statusWord ∧
    (∀ offset ∈ ([0x00, 0x04, 0x08, 0x10, 0x18] : List (BitVec 20)), s.hostRead offset = { s with busy := false }.hostRead offset) ∧
    (s.hostRead 0x14).getLsbD 0 = true ∧ (s.hostRead 0x14).getLsbD 1 = s.done ∧ (s.hostRead 0x14).getLsbD 2 = s.faulted ∧
    (s.hostRead 0x14).getLsbD 3 = s.irq ∧ bits (s.hostRead 0x14) 31 4 = 0 ∧
    s.hostRead 0x18 = s.startPC.zeroExtend 32 ∧ s.hostWrite 0x18 data = s ∧
    s.hostRead 0x1C = 0 ∧ s.hostRead 0x20 = 0 ∧ s.hostRead 0x24 = 0 ∧ s.hostRead 0x28 = 0 ∧ s.hostRead 0x2C = 0 ∧
    (data.getLsbD 3 = true → s.hostWrite 0x14 data = { s with irq := false }) ∧
    (data.getLsbD 1 = false → s.hostWrite 0x10 data = { s with irqEn := data.getLsbD 2 }) ∧
    (data.getLsbD 1 = true → s.hostWrite 0x10 data = { s with irqEn := data.getLsbD 2 }.softReset)

/-- What each control register shows while idle, its reserved and write-only bits reading 0 (R48, R50 to R60). -/
def Obligations.ControlRegisterReads : Prop :=
  ∀ s : State, s.params.legal = true → s.busy = false →
    bits (s.hostRead 0x00) 7 0 = s.params.LB ∧ bits (s.hostRead 0x00) 15 8 = s.params.N ∧
    bits (s.hostRead 0x00) 23 16 = s.params.SL ∧ bits (s.hostRead 0x00) 31 24 = 0x01 ∧
    bits (s.hostRead 0x04) 15 0 = s.params.imemWords - 1 ∧ bits (s.hostRead 0x04) 31 16 = s.params.dmemBytes - 1 ∧
    (s.hostRead 0x08).toNat = s.params.sqrtIters ∧
    (s.hostRead 0x14).getLsbD 0 = false ∧ (s.hostRead 0x14).getLsbD 1 = s.done ∧
    (s.hostRead 0x14).getLsbD 2 = s.faulted ∧ (s.hostRead 0x14).getLsbD 3 = s.irq ∧ bits (s.hostRead 0x14) 31 4 = 0 ∧
    (s.hostRead 0x10).getLsbD 2 = s.irqEn ∧ bits (s.hostRead 0x10) 1 0 = 0 ∧ bits (s.hostRead 0x10) 31 3 = 0 ∧
    bits (s.hostRead 0x18) 15 0 = s.startPC.toNat ∧ bits (s.hostRead 0x18) 31 16 = 0 ∧
    s.hostRead 0x1C = s.pc.zeroExtend 32 ∧
    (s.hostRead 0x20).getLsbD 0 = s.z ∧ (s.hostRead 0x20).getLsbD 1 = s.n ∧ bits (s.hostRead 0x20) 31 2 = 0 ∧
    s.hostRead 0x24 = s.faultCause.zeroExtend 32 ∧ s.hostRead 0x28 = s.faultPC.zeroExtend 32 ∧ s.hostRead 0x2C = s.faultInfo

/-- Host writes of the control registers beside START, SRESET and STATUS: a START_PC write while idle stores bits [15:0] and changes nothing
else (R55); a write of a read-only register is ignored, at any time (R48 to R52, R56 to R60); a CTRL write with neither START nor SRESET
changes nothing but IRQ_EN, at any time (R53). -/
def Obligations.ControlRegisterWrites : Prop :=
  ∀ (s : State) (data : Word),
    (s.busy = false → s.hostWrite 0x18 data = { s with startPC := data.setWidth 16 } ∧
      (s.hostWrite 0x18 data).hostRead 0x18 = (data.setWidth 16).zeroExtend 32) ∧
    (∀ offset ∈ ([0x00, 0x04, 0x08, 0x1C, 0x20, 0x24, 0x28, 0x2C] : List (BitVec 20)), s.hostWrite offset data = s) ∧
    (data.getLsbD 0 = false → data.getLsbD 1 = false → s.hostWrite 0x10 data = { s with irqEn := data.getLsbD 2 })

/-- The scalar and wide register windows while idle (R81, R82): what is read, what a write leaves in each register, and that it changes
nothing else. S0 discards a write; the bytes at index W/8 and above read 0, and those of W[i] outside the word written keep their values. -/
def Obligations.RegisterWindows : Prop :=
  ∀ (s : State) (i : Fin 8) (j : Fin 4) (data : Word), s.params.legal = true → s.busy = false →
    let sOff := BitVec.ofNat 20 (0x40 + 4 * i.val)
    let wOff := BitVec.ofNat 20 (0x100 + 16 * i.val + 4 * j.val)
    let t := s.hostWrite sOff data
    let u := s.hostWrite wOff data
    s.hostRead sOff = (s.readS i).zeroExtend 32 ∧
    t = { s with scalar := t.scalar } ∧
    (∀ r : SReg, t.readS r = if r = i ∧ i ≠ 0 then data.setWidth 16 else s.readS r) ∧
    s.hostRead wOff = BitVec.ofNat 32 ((s.readW i).toNat / 2 ^ (32 * j.val)) ∧
    u = { s with wide := u.wide } ∧
    (∀ r : WReg, r ≠ i → u.readW r = s.readW r) ∧
    ∀ b < 16, wideByte (u.readW i) b =
      if s.params.wideBytes ≤ b then 0
      else if 4 * j.val ≤ b ∧ b < 4 * j.val + 4 then BitVec.ofNat 8 (data.toNat / 2 ^ (8 * (b - 4 * j.val)))
      else wideByte (s.readW i) b

/-- The memory windows while idle (R83, R84): inside the memories a read returns the word or the four bytes, little-endian, and a write is read
back and changes nothing else; beyond their sizes reads return 0 and writes are ignored. -/
def Obligations.MemoryWindows : Prop :=
  ∀ (s : State) (k : Nat) (data : Word), s.params.legal = true → s.busy = false →
    let iOff := BitVec.ofNat 20 (0x40000 + 4 * k)
    let dOff := BitVec.ofNat 20 (0x80000 + 4 * k)
    let t := s.hostWrite iOff data
    let u := s.hostWrite dOff data
    (k < s.params.imemWords → s.hostRead iOff = s.imemWord k ∧ t.hostRead iOff = data ∧ t = { s with imem := t.imem } ∧
      ∀ m, m ≠ k → t.imemWord m = s.imemWord m) ∧
    (s.params.imemWords ≤ k → k < 0x10000 → s.hostRead iOff = 0 ∧ t = s) ∧
    (4 * k < s.params.dmemBytes →
      (∀ j < 4, BitVec.ofNat 8 ((s.hostRead dOff).toNat / 2 ^ (8 * j)) = s.dmemByte (4 * k + j)) ∧
      u.hostRead dOff = data ∧ u = { s with dmem := u.dmem } ∧
      (∀ j < 4, u.dmemByte (4 * k + j) = BitVec.ofNat 8 (data.toNat / 2 ^ (8 * j))) ∧
      ∀ b, b < 4 * k ∨ 4 * k + 4 ≤ b → u.dmemByte b = s.dmemByte b) ∧
    (s.params.dmemBytes ≤ 4 * k → k < 0x4000 → s.hostRead dOff = 0 ∧ u = s)

/-- Reserved offsets read 0 and ignore writes, at any time; bits [1:0] of an offset are ignored (R48, R80). -/
def Obligations.ReservedOffsets : Prop :=
  ∀ (s : State) (offset : BitVec 20) (data : Word),
    (offset.toNat / 4 = 3 ∨ (0x30 ≤ offset.toNat ∧ offset.toNat < 0x40) ∨ (0x60 ≤ offset.toNat ∧ offset.toNat < 0x100) ∨
      (0x180 ≤ offset.toNat ∧ offset.toNat < 0x40000) ∨ 0x90000 ≤ offset.toNat →
      s.hostRead offset = 0 ∧ s.hostWrite offset data = s) ∧
    s.hostRead offset = s.hostRead (BitVec.ofNat 20 (offset.toNat / 4 * 4)) ∧
    s.hostWrite offset data = s.hostWrite (BitVec.ofNat 20 (offset.toNat / 4 * 4)) data

/-- The interrupt output (R340): STATUS.IRQ and IRQ_EN; a run's end raises STATUS.IRQ, and the host's write of 1, a START and a reset
clear it. Writing IRQ_EN changes the line at once and not the bit. -/
def Obligations.InterruptOutput : Prop :=
  ∀ (s : State) (data : Word) (c : Cause) (info : Word),
    (s.irqLine = true ↔ s.irq = true ∧ s.irqEn = true) ∧ s.halt.irq = true ∧ (s.raiseFault c info).irq = true ∧
    (data.getLsbD 3 = true → s.hostWrite 0x14 data = { s with irq := false }) ∧
    (data.getLsbD 3 = false → s.hostWrite 0x14 data = s) ∧
    (data.getLsbD 1 = false → data.getLsbD 0 = false →
      (s.hostWrite 0x10 data).irq = s.irq ∧ (s.hostWrite 0x10 data).irqLine = (s.irq && data.getLsbD 2)) ∧
    s.start.irq = false ∧ s.softReset.irq = false ∧ s.hardReset.irq = false

/-- An SRESET that arrives during a step takes effect after it: no fault or completion of the aborted run remains, and the stores of the
run, the aborted step's among them, stay (R336, R361). -/
def Obligations.SresetAbortsRun : Prop :=
  ∀ (s t u : State) (data : Word) (rest : List HostEvent), s.params.legal = true → s.busy = true →
    s.hostQueue = .write 0x10 data :: rest → data.getLsbD 1 = true → engineStep s = .next t → step s = .next u →
    u.busy = false ∧ u.done = false ∧ u.faulted = false ∧ u.irq = false ∧ u.faultCause = 0 ∧ u.faultPC = 0 ∧ u.faultInfo = 0 ∧
    u.pc = 0 ∧ (∀ i, u.readW i = 0) ∧ (∀ i, u.readS i = 0) ∧ (∀ a, u.dmemByte a = t.dmemByte a) ∧ u.hostQueue = rest

/-- Resuming after a fault (R338): with START_PC = FAULT_PC + 1 the next run begins after the faulting instruction, with START_PC = FAULT_PC
at it, and the registers, the flags and the memories are as the fault left them. -/
def Obligations.ResumeAfterFault : Prop :=
  ∀ (s : State) (c : Cause) (info : Word) (skip : Bool),
    let f := s.raiseFault c info
    let target := if skip then f.faultPC + 1 else f.faultPC
    let r := (f.hostWrite 0x18 (target.zeroExtend 32)).hostWrite 0x10 1
    r.pc = (if skip then s.pc + 1 else s.pc) ∧ r.busy = true ∧ r.done = false ∧ r.faulted = false ∧ r.irq = false ∧
    r.faultCause = 0 ∧ r.faultPC = 0 ∧ r.faultInfo = 0 ∧ r.z = s.z ∧ r.n = s.n ∧
    (∀ i, r.readW i = s.readW i) ∧ (∀ i, r.readS i = s.readS i) ∧
    (∀ k, r.imemWord k = s.imemWord k) ∧ ∀ a, r.dmemByte a = s.dmemByte a
end

