-- ==== Sys2Proof/Laws/State.lean ====
section
/-! SUPPORT. One lemma per field per update of the state, so that no proof unfolds a record update. -/

namespace Sys2Proof.Machine

variable (s : State)

/-! ### writeW -/

@[simp] theorem State.writeW_params (i : WReg) (v : Wide) : (s.writeW i v).params = s.params := rfl
@[simp] theorem State.writeW_wide (i : WReg) (v : Wide) : (s.writeW i v).wide = s.wide.set i (truncW s.params v) := rfl
@[simp] theorem State.writeW_scalar (i : WReg) (v : Wide) : (s.writeW i v).scalar = s.scalar := rfl
@[simp] theorem State.writeW_z (i : WReg) (v : Wide) : (s.writeW i v).z = s.z := rfl
@[simp] theorem State.writeW_n (i : WReg) (v : Wide) : (s.writeW i v).n = s.n := rfl
@[simp] theorem State.writeW_pc (i : WReg) (v : Wide) : (s.writeW i v).pc = s.pc := rfl
@[simp] theorem State.writeW_busy (i : WReg) (v : Wide) : (s.writeW i v).busy = s.busy := rfl
@[simp] theorem State.writeW_done (i : WReg) (v : Wide) : (s.writeW i v).done = s.done := rfl
@[simp] theorem State.writeW_faulted (i : WReg) (v : Wide) : (s.writeW i v).faulted = s.faulted := rfl
@[simp] theorem State.writeW_irq (i : WReg) (v : Wide) : (s.writeW i v).irq = s.irq := rfl
@[simp] theorem State.writeW_irqEn (i : WReg) (v : Wide) : (s.writeW i v).irqEn = s.irqEn := rfl
@[simp] theorem State.writeW_startPC (i : WReg) (v : Wide) : (s.writeW i v).startPC = s.startPC := rfl
@[simp] theorem State.writeW_faultCause (i : WReg) (v : Wide) : (s.writeW i v).faultCause = s.faultCause := rfl
@[simp] theorem State.writeW_faultPC (i : WReg) (v : Wide) : (s.writeW i v).faultPC = s.faultPC := rfl
@[simp] theorem State.writeW_faultInfo (i : WReg) (v : Wide) : (s.writeW i v).faultInfo = s.faultInfo := rfl
@[simp] theorem State.writeW_imem (i : WReg) (v : Wide) : (s.writeW i v).imem = s.imem := rfl
@[simp] theorem State.writeW_dmem (i : WReg) (v : Wide) : (s.writeW i v).dmem = s.dmem := rfl
@[simp] theorem State.writeW_hostQueue (i : WReg) (v : Wide) : (s.writeW i v).hostQueue = s.hostQueue := rfl
@[simp] theorem State.writeW_busData (i : WReg) (v : Wide) : (s.writeW i v).busData = s.busData := rfl

/-! ### setFlags -/

@[simp] theorem State.setFlags_params (b c : Bool) : (s.setFlags b c).params = s.params := rfl
@[simp] theorem State.setFlags_wide (b c : Bool) : (s.setFlags b c).wide = s.wide := rfl
@[simp] theorem State.setFlags_scalar (b c : Bool) : (s.setFlags b c).scalar = s.scalar := rfl
@[simp] theorem State.setFlags_z (b c : Bool) : (s.setFlags b c).z = b := rfl
@[simp] theorem State.setFlags_n (b c : Bool) : (s.setFlags b c).n = c := rfl
@[simp] theorem State.setFlags_pc (b c : Bool) : (s.setFlags b c).pc = s.pc := rfl
@[simp] theorem State.setFlags_busy (b c : Bool) : (s.setFlags b c).busy = s.busy := rfl
@[simp] theorem State.setFlags_done (b c : Bool) : (s.setFlags b c).done = s.done := rfl
@[simp] theorem State.setFlags_faulted (b c : Bool) : (s.setFlags b c).faulted = s.faulted := rfl
@[simp] theorem State.setFlags_irq (b c : Bool) : (s.setFlags b c).irq = s.irq := rfl
@[simp] theorem State.setFlags_irqEn (b c : Bool) : (s.setFlags b c).irqEn = s.irqEn := rfl
@[simp] theorem State.setFlags_startPC (b c : Bool) : (s.setFlags b c).startPC = s.startPC := rfl
@[simp] theorem State.setFlags_faultCause (b c : Bool) : (s.setFlags b c).faultCause = s.faultCause := rfl
@[simp] theorem State.setFlags_faultPC (b c : Bool) : (s.setFlags b c).faultPC = s.faultPC := rfl
@[simp] theorem State.setFlags_faultInfo (b c : Bool) : (s.setFlags b c).faultInfo = s.faultInfo := rfl
@[simp] theorem State.setFlags_imem (b c : Bool) : (s.setFlags b c).imem = s.imem := rfl
@[simp] theorem State.setFlags_dmem (b c : Bool) : (s.setFlags b c).dmem = s.dmem := rfl
@[simp] theorem State.setFlags_hostQueue (b c : Bool) : (s.setFlags b c).hostQueue = s.hostQueue := rfl
@[simp] theorem State.setFlags_busData (b c : Bool) : (s.setFlags b c).busData = s.busData := rfl

/-! ### jump -/

@[simp] theorem State.jump_params (t : Half) : (s.jump t).params = s.params := rfl
@[simp] theorem State.jump_wide (t : Half) : (s.jump t).wide = s.wide := rfl
@[simp] theorem State.jump_scalar (t : Half) : (s.jump t).scalar = s.scalar := rfl
@[simp] theorem State.jump_z (t : Half) : (s.jump t).z = s.z := rfl
@[simp] theorem State.jump_n (t : Half) : (s.jump t).n = s.n := rfl
@[simp] theorem State.jump_pc (t : Half) : (s.jump t).pc = t := rfl
@[simp] theorem State.jump_busy (t : Half) : (s.jump t).busy = s.busy := rfl
@[simp] theorem State.jump_done (t : Half) : (s.jump t).done = s.done := rfl
@[simp] theorem State.jump_faulted (t : Half) : (s.jump t).faulted = s.faulted := rfl
@[simp] theorem State.jump_irq (t : Half) : (s.jump t).irq = s.irq := rfl
@[simp] theorem State.jump_irqEn (t : Half) : (s.jump t).irqEn = s.irqEn := rfl
@[simp] theorem State.jump_startPC (t : Half) : (s.jump t).startPC = s.startPC := rfl
@[simp] theorem State.jump_faultCause (t : Half) : (s.jump t).faultCause = s.faultCause := rfl
@[simp] theorem State.jump_faultPC (t : Half) : (s.jump t).faultPC = s.faultPC := rfl
@[simp] theorem State.jump_faultInfo (t : Half) : (s.jump t).faultInfo = s.faultInfo := rfl
@[simp] theorem State.jump_imem (t : Half) : (s.jump t).imem = s.imem := rfl
@[simp] theorem State.jump_dmem (t : Half) : (s.jump t).dmem = s.dmem := rfl
@[simp] theorem State.jump_hostQueue (t : Half) : (s.jump t).hostQueue = s.hostQueue := rfl
@[simp] theorem State.jump_busData (t : Half) : (s.jump t).busData = s.busData := rfl

/-! ### advance -/

@[simp] theorem State.advance_params : (s.advance).params = s.params := rfl
@[simp] theorem State.advance_wide : (s.advance).wide = s.wide := rfl
@[simp] theorem State.advance_scalar : (s.advance).scalar = s.scalar := rfl
@[simp] theorem State.advance_z : (s.advance).z = s.z := rfl
@[simp] theorem State.advance_n : (s.advance).n = s.n := rfl
@[simp] theorem State.advance_pc : (s.advance).pc = s.pc + 1 := rfl
@[simp] theorem State.advance_busy : (s.advance).busy = s.busy := rfl
@[simp] theorem State.advance_done : (s.advance).done = s.done := rfl
@[simp] theorem State.advance_faulted : (s.advance).faulted = s.faulted := rfl
@[simp] theorem State.advance_irq : (s.advance).irq = s.irq := rfl
@[simp] theorem State.advance_irqEn : (s.advance).irqEn = s.irqEn := rfl
@[simp] theorem State.advance_startPC : (s.advance).startPC = s.startPC := rfl
@[simp] theorem State.advance_faultCause : (s.advance).faultCause = s.faultCause := rfl
@[simp] theorem State.advance_faultPC : (s.advance).faultPC = s.faultPC := rfl
@[simp] theorem State.advance_faultInfo : (s.advance).faultInfo = s.faultInfo := rfl
@[simp] theorem State.advance_imem : (s.advance).imem = s.imem := rfl
@[simp] theorem State.advance_dmem : (s.advance).dmem = s.dmem := rfl
@[simp] theorem State.advance_hostQueue : (s.advance).hostQueue = s.hostQueue := rfl
@[simp] theorem State.advance_busData : (s.advance).busData = s.busData := rfl

/-! ### raiseFault -/

@[simp] theorem State.raiseFault_params (c : Cause) (w : Word) : (s.raiseFault c w).params = s.params := rfl
@[simp] theorem State.raiseFault_wide (c : Cause) (w : Word) : (s.raiseFault c w).wide = s.wide := rfl
@[simp] theorem State.raiseFault_scalar (c : Cause) (w : Word) : (s.raiseFault c w).scalar = s.scalar := rfl
@[simp] theorem State.raiseFault_z (c : Cause) (w : Word) : (s.raiseFault c w).z = s.z := rfl
@[simp] theorem State.raiseFault_n (c : Cause) (w : Word) : (s.raiseFault c w).n = s.n := rfl
@[simp] theorem State.raiseFault_pc (c : Cause) (w : Word) : (s.raiseFault c w).pc = s.pc := rfl
@[simp] theorem State.raiseFault_busy (c : Cause) (w : Word) : (s.raiseFault c w).busy = false := rfl
@[simp] theorem State.raiseFault_done (c : Cause) (w : Word) : (s.raiseFault c w).done = s.done := rfl
@[simp] theorem State.raiseFault_faulted (c : Cause) (w : Word) : (s.raiseFault c w).faulted = true := rfl
@[simp] theorem State.raiseFault_irq (c : Cause) (w : Word) : (s.raiseFault c w).irq = true := rfl
@[simp] theorem State.raiseFault_irqEn (c : Cause) (w : Word) : (s.raiseFault c w).irqEn = s.irqEn := rfl
@[simp] theorem State.raiseFault_startPC (c : Cause) (w : Word) : (s.raiseFault c w).startPC = s.startPC := rfl
@[simp] theorem State.raiseFault_faultCause (c : Cause) (w : Word) : (s.raiseFault c w).faultCause = c.code := rfl
@[simp] theorem State.raiseFault_faultPC (c : Cause) (w : Word) : (s.raiseFault c w).faultPC = s.pc := rfl
@[simp] theorem State.raiseFault_faultInfo (c : Cause) (w : Word) : (s.raiseFault c w).faultInfo = w := rfl
@[simp] theorem State.raiseFault_imem (c : Cause) (w : Word) : (s.raiseFault c w).imem = s.imem := rfl
@[simp] theorem State.raiseFault_dmem (c : Cause) (w : Word) : (s.raiseFault c w).dmem = s.dmem := rfl
@[simp] theorem State.raiseFault_hostQueue (c : Cause) (w : Word) : (s.raiseFault c w).hostQueue = s.hostQueue := rfl
@[simp] theorem State.raiseFault_busData (c : Cause) (w : Word) : (s.raiseFault c w).busData = s.busData := rfl

/-! ### halt -/

@[simp] theorem State.halt_params : (s.halt).params = s.params := rfl
@[simp] theorem State.halt_wide : (s.halt).wide = s.wide := rfl
@[simp] theorem State.halt_scalar : (s.halt).scalar = s.scalar := rfl
@[simp] theorem State.halt_z : (s.halt).z = s.z := rfl
@[simp] theorem State.halt_n : (s.halt).n = s.n := rfl
@[simp] theorem State.halt_pc : (s.halt).pc = s.pc := rfl
@[simp] theorem State.halt_busy : (s.halt).busy = false := rfl
@[simp] theorem State.halt_done : (s.halt).done = true := rfl
@[simp] theorem State.halt_faulted : (s.halt).faulted = s.faulted := rfl
@[simp] theorem State.halt_irq : (s.halt).irq = true := rfl
@[simp] theorem State.halt_irqEn : (s.halt).irqEn = s.irqEn := rfl
@[simp] theorem State.halt_startPC : (s.halt).startPC = s.startPC := rfl
@[simp] theorem State.halt_faultCause : (s.halt).faultCause = s.faultCause := rfl
@[simp] theorem State.halt_faultPC : (s.halt).faultPC = s.faultPC := rfl
@[simp] theorem State.halt_faultInfo : (s.halt).faultInfo = s.faultInfo := rfl
@[simp] theorem State.halt_imem : (s.halt).imem = s.imem := rfl
@[simp] theorem State.halt_dmem : (s.halt).dmem = s.dmem := rfl
@[simp] theorem State.halt_hostQueue : (s.halt).hostQueue = s.hostQueue := rfl
@[simp] theorem State.halt_busData : (s.halt).busData = s.busData := rfl

/-! ### start -/

@[simp] theorem State.start_params : (s.start).params = s.params := rfl
@[simp] theorem State.start_wide : (s.start).wide = s.wide := rfl
@[simp] theorem State.start_scalar : (s.start).scalar = s.scalar := rfl
@[simp] theorem State.start_z : (s.start).z = s.z := rfl
@[simp] theorem State.start_n : (s.start).n = s.n := rfl
@[simp] theorem State.start_pc : (s.start).pc = s.startPC := rfl
@[simp] theorem State.start_busy : (s.start).busy = true := rfl
@[simp] theorem State.start_done : (s.start).done = false := rfl
@[simp] theorem State.start_faulted : (s.start).faulted = false := rfl
@[simp] theorem State.start_irq : (s.start).irq = false := rfl
@[simp] theorem State.start_irqEn : (s.start).irqEn = s.irqEn := rfl
@[simp] theorem State.start_startPC : (s.start).startPC = s.startPC := rfl
@[simp] theorem State.start_faultCause : (s.start).faultCause = 0 := rfl
@[simp] theorem State.start_faultPC : (s.start).faultPC = 0 := rfl
@[simp] theorem State.start_faultInfo : (s.start).faultInfo = 0 := rfl
@[simp] theorem State.start_imem : (s.start).imem = s.imem := rfl
@[simp] theorem State.start_dmem : (s.start).dmem = s.dmem := rfl
@[simp] theorem State.start_hostQueue : (s.start).hostQueue = s.hostQueue := rfl
@[simp] theorem State.start_busData : (s.start).busData = s.busData := rfl

/-! ### softReset -/

@[simp] theorem State.softReset_params : (s.softReset).params = s.params := rfl
@[simp] theorem State.softReset_wide : (s.softReset).wide = Vector.replicate 8 0 := rfl
@[simp] theorem State.softReset_scalar : (s.softReset).scalar = Vector.replicate 8 0 := rfl
@[simp] theorem State.softReset_z : (s.softReset).z = false := rfl
@[simp] theorem State.softReset_n : (s.softReset).n = false := rfl
@[simp] theorem State.softReset_pc : (s.softReset).pc = 0 := rfl
@[simp] theorem State.softReset_busy : (s.softReset).busy = false := rfl
@[simp] theorem State.softReset_done : (s.softReset).done = false := rfl
@[simp] theorem State.softReset_faulted : (s.softReset).faulted = false := rfl
@[simp] theorem State.softReset_irq : (s.softReset).irq = false := rfl
@[simp] theorem State.softReset_irqEn : (s.softReset).irqEn = s.irqEn := rfl
@[simp] theorem State.softReset_startPC : (s.softReset).startPC = 0 := rfl
@[simp] theorem State.softReset_faultCause : (s.softReset).faultCause = 0 := rfl
@[simp] theorem State.softReset_faultPC : (s.softReset).faultPC = 0 := rfl
@[simp] theorem State.softReset_faultInfo : (s.softReset).faultInfo = 0 := rfl
@[simp] theorem State.softReset_imem : (s.softReset).imem = s.imem := rfl
@[simp] theorem State.softReset_dmem : (s.softReset).dmem = s.dmem := rfl
@[simp] theorem State.softReset_hostQueue : (s.softReset).hostQueue = s.hostQueue := rfl
@[simp] theorem State.softReset_busData : (s.softReset).busData = s.busData := rfl

/-! ### hardReset -/

@[simp] theorem State.hardReset_params : (s.hardReset).params = s.params := rfl
@[simp] theorem State.hardReset_wide : (s.hardReset).wide = Vector.replicate 8 0 := rfl
@[simp] theorem State.hardReset_scalar : (s.hardReset).scalar = Vector.replicate 8 0 := rfl
@[simp] theorem State.hardReset_z : (s.hardReset).z = false := rfl
@[simp] theorem State.hardReset_n : (s.hardReset).n = false := rfl
@[simp] theorem State.hardReset_pc : (s.hardReset).pc = 0 := rfl
@[simp] theorem State.hardReset_busy : (s.hardReset).busy = false := rfl
@[simp] theorem State.hardReset_done : (s.hardReset).done = false := rfl
@[simp] theorem State.hardReset_faulted : (s.hardReset).faulted = false := rfl
@[simp] theorem State.hardReset_irq : (s.hardReset).irq = false := rfl
@[simp] theorem State.hardReset_irqEn : (s.hardReset).irqEn = false := rfl
@[simp] theorem State.hardReset_startPC : (s.hardReset).startPC = 0 := rfl
@[simp] theorem State.hardReset_faultCause : (s.hardReset).faultCause = 0 := rfl
@[simp] theorem State.hardReset_faultPC : (s.hardReset).faultPC = 0 := rfl
@[simp] theorem State.hardReset_faultInfo : (s.hardReset).faultInfo = 0 := rfl
@[simp] theorem State.hardReset_imem : (s.hardReset).imem = s.imem := rfl
@[simp] theorem State.hardReset_dmem : (s.hardReset).dmem = s.dmem := rfl
@[simp] theorem State.hardReset_hostQueue : (s.hardReset).hostQueue = s.hostQueue := rfl
@[simp] theorem State.hardReset_busData : (s.hardReset).busData = s.busData := rfl

/-! ### dmemPut -/

@[simp] theorem State.dmemPut_params (a : Nat) (v : Byte) : (s.dmemPut a v).params = s.params := rfl
@[simp] theorem State.dmemPut_wide (a : Nat) (v : Byte) : (s.dmemPut a v).wide = s.wide := rfl
@[simp] theorem State.dmemPut_scalar (a : Nat) (v : Byte) : (s.dmemPut a v).scalar = s.scalar := rfl
@[simp] theorem State.dmemPut_z (a : Nat) (v : Byte) : (s.dmemPut a v).z = s.z := rfl
@[simp] theorem State.dmemPut_n (a : Nat) (v : Byte) : (s.dmemPut a v).n = s.n := rfl
@[simp] theorem State.dmemPut_pc (a : Nat) (v : Byte) : (s.dmemPut a v).pc = s.pc := rfl
@[simp] theorem State.dmemPut_busy (a : Nat) (v : Byte) : (s.dmemPut a v).busy = s.busy := rfl
@[simp] theorem State.dmemPut_done (a : Nat) (v : Byte) : (s.dmemPut a v).done = s.done := rfl
@[simp] theorem State.dmemPut_faulted (a : Nat) (v : Byte) : (s.dmemPut a v).faulted = s.faulted := rfl
@[simp] theorem State.dmemPut_irq (a : Nat) (v : Byte) : (s.dmemPut a v).irq = s.irq := rfl
@[simp] theorem State.dmemPut_irqEn (a : Nat) (v : Byte) : (s.dmemPut a v).irqEn = s.irqEn := rfl
@[simp] theorem State.dmemPut_startPC (a : Nat) (v : Byte) : (s.dmemPut a v).startPC = s.startPC := rfl
@[simp] theorem State.dmemPut_faultCause (a : Nat) (v : Byte) : (s.dmemPut a v).faultCause = s.faultCause := rfl
@[simp] theorem State.dmemPut_faultPC (a : Nat) (v : Byte) : (s.dmemPut a v).faultPC = s.faultPC := rfl
@[simp] theorem State.dmemPut_faultInfo (a : Nat) (v : Byte) : (s.dmemPut a v).faultInfo = s.faultInfo := rfl
@[simp] theorem State.dmemPut_imem (a : Nat) (v : Byte) : (s.dmemPut a v).imem = s.imem := rfl
@[simp] theorem State.dmemPut_dmem (a : Nat) (v : Byte) : (s.dmemPut a v).dmem = Memory.put s.dmem a v := rfl
@[simp] theorem State.dmemPut_hostQueue (a : Nat) (v : Byte) : (s.dmemPut a v).hostQueue = s.hostQueue := rfl
@[simp] theorem State.dmemPut_busData (a : Nat) (v : Byte) : (s.dmemPut a v).busData = s.busData := rfl

/-! ### imemPut -/

@[simp] theorem State.imemPut_params (k : Nat) (w : Word) : (s.imemPut k w).params = s.params := rfl
@[simp] theorem State.imemPut_wide (k : Nat) (w : Word) : (s.imemPut k w).wide = s.wide := rfl
@[simp] theorem State.imemPut_scalar (k : Nat) (w : Word) : (s.imemPut k w).scalar = s.scalar := rfl
@[simp] theorem State.imemPut_z (k : Nat) (w : Word) : (s.imemPut k w).z = s.z := rfl
@[simp] theorem State.imemPut_n (k : Nat) (w : Word) : (s.imemPut k w).n = s.n := rfl
@[simp] theorem State.imemPut_pc (k : Nat) (w : Word) : (s.imemPut k w).pc = s.pc := rfl
@[simp] theorem State.imemPut_busy (k : Nat) (w : Word) : (s.imemPut k w).busy = s.busy := rfl
@[simp] theorem State.imemPut_done (k : Nat) (w : Word) : (s.imemPut k w).done = s.done := rfl
@[simp] theorem State.imemPut_faulted (k : Nat) (w : Word) : (s.imemPut k w).faulted = s.faulted := rfl
@[simp] theorem State.imemPut_irq (k : Nat) (w : Word) : (s.imemPut k w).irq = s.irq := rfl
@[simp] theorem State.imemPut_irqEn (k : Nat) (w : Word) : (s.imemPut k w).irqEn = s.irqEn := rfl
@[simp] theorem State.imemPut_startPC (k : Nat) (w : Word) : (s.imemPut k w).startPC = s.startPC := rfl
@[simp] theorem State.imemPut_faultCause (k : Nat) (w : Word) : (s.imemPut k w).faultCause = s.faultCause := rfl
@[simp] theorem State.imemPut_faultPC (k : Nat) (w : Word) : (s.imemPut k w).faultPC = s.faultPC := rfl
@[simp] theorem State.imemPut_faultInfo (k : Nat) (w : Word) : (s.imemPut k w).faultInfo = s.faultInfo := rfl
@[simp] theorem State.imemPut_imem (k : Nat) (w : Word) : (s.imemPut k w).imem = Memory.put s.imem k w := rfl
@[simp] theorem State.imemPut_dmem (k : Nat) (w : Word) : (s.imemPut k w).dmem = s.dmem := rfl
@[simp] theorem State.imemPut_hostQueue (k : Nat) (w : Word) : (s.imemPut k w).hostQueue = s.hostQueue := rfl
@[simp] theorem State.imemPut_busData (k : Nat) (w : Word) : (s.imemPut k w).busData = s.busData := rfl

/-! ### writeS -/

@[simp] theorem State.writeS_scalar (i : SReg) (v : Half) :
    (s.writeS i v).scalar = if i = 0 then s.scalar else s.scalar.set i v := by unfold State.writeS; split <;> rfl
@[simp] theorem State.writeS_params (i : SReg) (v : Half) : (s.writeS i v).params = s.params := by unfold State.writeS; split <;> rfl
@[simp] theorem State.writeS_wide (i : SReg) (v : Half) : (s.writeS i v).wide = s.wide := by unfold State.writeS; split <;> rfl
@[simp] theorem State.writeS_z (i : SReg) (v : Half) : (s.writeS i v).z = s.z := by unfold State.writeS; split <;> rfl
@[simp] theorem State.writeS_n (i : SReg) (v : Half) : (s.writeS i v).n = s.n := by unfold State.writeS; split <;> rfl
@[simp] theorem State.writeS_pc (i : SReg) (v : Half) : (s.writeS i v).pc = s.pc := by unfold State.writeS; split <;> rfl
@[simp] theorem State.writeS_busy (i : SReg) (v : Half) : (s.writeS i v).busy = s.busy := by unfold State.writeS; split <;> rfl
@[simp] theorem State.writeS_done (i : SReg) (v : Half) : (s.writeS i v).done = s.done := by unfold State.writeS; split <;> rfl
@[simp] theorem State.writeS_faulted (i : SReg) (v : Half) : (s.writeS i v).faulted = s.faulted := by unfold State.writeS; split <;> rfl
@[simp] theorem State.writeS_irq (i : SReg) (v : Half) : (s.writeS i v).irq = s.irq := by unfold State.writeS; split <;> rfl
@[simp] theorem State.writeS_irqEn (i : SReg) (v : Half) : (s.writeS i v).irqEn = s.irqEn := by unfold State.writeS; split <;> rfl
@[simp] theorem State.writeS_startPC (i : SReg) (v : Half) : (s.writeS i v).startPC = s.startPC := by unfold State.writeS; split <;> rfl
@[simp] theorem State.writeS_faultCause (i : SReg) (v : Half) : (s.writeS i v).faultCause = s.faultCause := by unfold State.writeS; split <;> rfl
@[simp] theorem State.writeS_faultPC (i : SReg) (v : Half) : (s.writeS i v).faultPC = s.faultPC := by unfold State.writeS; split <;> rfl
@[simp] theorem State.writeS_faultInfo (i : SReg) (v : Half) : (s.writeS i v).faultInfo = s.faultInfo := by unfold State.writeS; split <;> rfl
@[simp] theorem State.writeS_imem (i : SReg) (v : Half) : (s.writeS i v).imem = s.imem := by unfold State.writeS; split <;> rfl
@[simp] theorem State.writeS_dmem (i : SReg) (v : Half) : (s.writeS i v).dmem = s.dmem := by unfold State.writeS; split <;> rfl
@[simp] theorem State.writeS_hostQueue (i : SReg) (v : Half) : (s.writeS i v).hostQueue = s.hostQueue := by unfold State.writeS; split <;> rfl
@[simp] theorem State.writeS_busData (i : SReg) (v : Half) : (s.writeS i v).busData = s.busData := by unfold State.writeS; split <;> rfl

/-! ### dmemPutBytes -/

@[simp] theorem State.dmemPutBytes_nil (a : Nat) : s.dmemPutBytes a [] = s := rfl
@[simp] theorem State.dmemPutBytes_cons (a : Nat) (v : Byte) (vs : List Byte) :
    s.dmemPutBytes a (v :: vs) = (s.dmemPut a v).dmemPutBytes (a + 1) vs := rfl
@[simp] theorem State.dmemPutBytes_params (a : Nat) (vs : List Byte) : (s.dmemPutBytes a vs).params = s.params := by
  induction vs generalizing a s with
  | nil => rfl
  | cons v vs ih => simp [ih]
@[simp] theorem State.dmemPutBytes_wide (a : Nat) (vs : List Byte) : (s.dmemPutBytes a vs).wide = s.wide := by
  induction vs generalizing a s with
  | nil => rfl
  | cons v vs ih => simp [ih]
@[simp] theorem State.dmemPutBytes_scalar (a : Nat) (vs : List Byte) : (s.dmemPutBytes a vs).scalar = s.scalar := by
  induction vs generalizing a s with
  | nil => rfl
  | cons v vs ih => simp [ih]
@[simp] theorem State.dmemPutBytes_z (a : Nat) (vs : List Byte) : (s.dmemPutBytes a vs).z = s.z := by
  induction vs generalizing a s with
  | nil => rfl
  | cons v vs ih => simp [ih]
@[simp] theorem State.dmemPutBytes_n (a : Nat) (vs : List Byte) : (s.dmemPutBytes a vs).n = s.n := by
  induction vs generalizing a s with
  | nil => rfl
  | cons v vs ih => simp [ih]
@[simp] theorem State.dmemPutBytes_pc (a : Nat) (vs : List Byte) : (s.dmemPutBytes a vs).pc = s.pc := by
  induction vs generalizing a s with
  | nil => rfl
  | cons v vs ih => simp [ih]
@[simp] theorem State.dmemPutBytes_busy (a : Nat) (vs : List Byte) : (s.dmemPutBytes a vs).busy = s.busy := by
  induction vs generalizing a s with
  | nil => rfl
  | cons v vs ih => simp [ih]
@[simp] theorem State.dmemPutBytes_done (a : Nat) (vs : List Byte) : (s.dmemPutBytes a vs).done = s.done := by
  induction vs generalizing a s with
  | nil => rfl
  | cons v vs ih => simp [ih]
@[simp] theorem State.dmemPutBytes_faulted (a : Nat) (vs : List Byte) : (s.dmemPutBytes a vs).faulted = s.faulted := by
  induction vs generalizing a s with
  | nil => rfl
  | cons v vs ih => simp [ih]
@[simp] theorem State.dmemPutBytes_irq (a : Nat) (vs : List Byte) : (s.dmemPutBytes a vs).irq = s.irq := by
  induction vs generalizing a s with
  | nil => rfl
  | cons v vs ih => simp [ih]
@[simp] theorem State.dmemPutBytes_irqEn (a : Nat) (vs : List Byte) : (s.dmemPutBytes a vs).irqEn = s.irqEn := by
  induction vs generalizing a s with
  | nil => rfl
  | cons v vs ih => simp [ih]
@[simp] theorem State.dmemPutBytes_startPC (a : Nat) (vs : List Byte) : (s.dmemPutBytes a vs).startPC = s.startPC := by
  induction vs generalizing a s with
  | nil => rfl
  | cons v vs ih => simp [ih]
@[simp] theorem State.dmemPutBytes_faultCause (a : Nat) (vs : List Byte) : (s.dmemPutBytes a vs).faultCause = s.faultCause := by
  induction vs generalizing a s with
  | nil => rfl
  | cons v vs ih => simp [ih]
@[simp] theorem State.dmemPutBytes_faultPC (a : Nat) (vs : List Byte) : (s.dmemPutBytes a vs).faultPC = s.faultPC := by
  induction vs generalizing a s with
  | nil => rfl
  | cons v vs ih => simp [ih]
@[simp] theorem State.dmemPutBytes_faultInfo (a : Nat) (vs : List Byte) : (s.dmemPutBytes a vs).faultInfo = s.faultInfo := by
  induction vs generalizing a s with
  | nil => rfl
  | cons v vs ih => simp [ih]
@[simp] theorem State.dmemPutBytes_imem (a : Nat) (vs : List Byte) : (s.dmemPutBytes a vs).imem = s.imem := by
  induction vs generalizing a s with
  | nil => rfl
  | cons v vs ih => simp [ih]
@[simp] theorem State.dmemPutBytes_hostQueue (a : Nat) (vs : List Byte) : (s.dmemPutBytes a vs).hostQueue = s.hostQueue := by
  induction vs generalizing a s with
  | nil => rfl
  | cons v vs ih => simp [ih]
@[simp] theorem State.dmemPutBytes_busData (a : Nat) (vs : List Byte) : (s.dmemPutBytes a vs).busData = s.busData := by
  induction vs generalizing a s with
  | nil => rfl
  | cons v vs ih => simp [ih]

end Sys2Proof.Machine
end

