-- ==== Sys2Proof/Laws/Memory.lean ====
section
/-! SUPPORT. Sparse memory: read after write, and the canonical form that every memory operation keeps. -/

namespace Sys2Proof.Machine

variable {α : Type}

/-! ### Read after write -/

theorem Memory.find_put_same (m : List (Nat × α)) (a : Nat) (v : α) : Memory.find (Memory.put m a v) a = some v := by
  induction m with
  | nil => simp [Memory.put, Memory.find]
  | cons c m ih =>
    obtain ⟨b, u⟩ := c
    simp only [Memory.put]
    split
    · simp [Memory.find]
    · split
      · simp [Memory.find]
      · simp [Memory.find, *]

theorem Memory.find_put_other (m : List (Nat × α)) (a b : Nat) (v : α) (h : b ≠ a) :
    Memory.find (Memory.put m a v) b = Memory.find m b := by
  induction m with
  | nil => simp [Memory.put, Memory.find, h]
  | cons c m ih =>
    obtain ⟨k, u⟩ := c
    simp only [Memory.put]
    split
    · simp [Memory.find, h]
    · split
      · rename_i hk; subst hk; simp [Memory.find, h]
      · simp [Memory.find, ih]

/-! ### Canonical form -/

theorem Memory.risingFrom_put (m : List (Nat × α)) (lo a : Nat) (v : α) (hlo : lo < a)
    (h : Memory.risingFrom lo m = true) : Memory.risingFrom lo (Memory.put m a v) = true := by
  induction m generalizing lo with
  | nil => simp [Memory.put, Memory.risingFrom, hlo]
  | cons c m ih =>
    obtain ⟨b, u⟩ := c
    simp only [Memory.risingFrom, Bool.and_eq_true, decide_eq_true_eq] at h
    simp only [Memory.put]
    split
    · simp [Memory.risingFrom, *]
    · split
      · rename_i hk; subst hk; simp [Memory.risingFrom, *]
      · simp only [Memory.risingFrom, Bool.and_eq_true, decide_eq_true_eq]
        exact ⟨h.1, ih b (by omega) h.2⟩

/-- A write keeps the canonical form. -/
theorem Memory.wf_put (m : List (Nat × α)) (a : Nat) (v : α) (h : Memory.wf m = true) :
    Memory.wf (Memory.put m a v) = true := by
  cases m with
  | nil => rfl
  | cons c m =>
    obtain ⟨b, u⟩ := c
    simp only [Memory.wf] at h
    simp only [Memory.put]
    split
    · simp [Memory.wf, Memory.risingFrom, *]
    · split
      · rename_i hk; subst hk; exact h
      · exact Memory.risingFrom_put m b a v (by omega) h

/-- A write below the bound lists only addresses below the bound. -/
theorem Memory.below_put (m : List (Nat × α)) (bound a : Nat) (v : α) (ha : a < bound)
    (h : Memory.below bound m = true) : Memory.below bound (Memory.put m a v) = true := by
  induction m with
  | nil => simp [Memory.put, Memory.below, ha]
  | cons c m ih =>
    obtain ⟨b, u⟩ := c
    simp only [Memory.below, List.all_cons, Bool.and_eq_true, decide_eq_true_eq] at h ih
    simp only [Memory.put]
    split
    · simp only [Memory.below, List.all_cons, Bool.and_eq_true, decide_eq_true_eq]; exact ⟨ha, h⟩
    · split
      · simp only [Memory.below, List.all_cons, Bool.and_eq_true, decide_eq_true_eq]; exact ⟨ha, h.2⟩
      · simp only [Memory.below, List.all_cons, Bool.and_eq_true, decide_eq_true_eq]; exact ⟨h.1, ih h.2⟩

/-! ### Bytes of DMEM -/

variable (s : State)

theorem State.dmemByte_dmemPut (a b : Nat) (v : Byte) :
    (s.dmemPut a v).dmemByte b = if b = a then v else s.dmemByte b := by
  unfold State.dmemByte
  split
  · rename_i h; subst h; simp [Memory.find_put_same]
  · rename_i h; simp [Memory.find_put_other _ _ _ _ h]

/-- Storing bytes leaves every byte outside them as it was. -/
theorem State.dmemByte_dmemPutBytes_outside (a : Nat) (vs : List Byte) (b : Nat) (h : b < a ∨ a + vs.length ≤ b) :
    (s.dmemPutBytes a vs).dmemByte b = s.dmemByte b := by
  induction vs generalizing a s with
  | nil => rfl
  | cons v vs ih =>
    simp only [List.length_cons] at h
    rw [State.dmemPutBytes_cons, ih _ _ (by omega), State.dmemByte_dmemPut]
    split
    · omega
    · rfl

/-- Storing bytes stores each of them. -/
theorem State.dmemByte_dmemPutBytes_inside (a : Nat) (vs : List Byte) (j : Nat) (h : j < vs.length) :
    (s.dmemPutBytes a vs).dmemByte (a + j) = vs[j] := by
  induction vs generalizing a s j with
  | nil => simp at h
  | cons v vs ih =>
    rw [State.dmemPutBytes_cons]
    cases j with
    | zero => rw [State.dmemByte_dmemPutBytes_outside _ _ _ _ (by omega), State.dmemByte_dmemPut]; simp
    | succ j =>
      have e : a + (j + 1) = a + 1 + j := by omega
      simp only [List.length_cons] at h
      rw [e, ih _ _ j (by omega)]; rfl

theorem State.dmemPutBytes_wf (a : Nat) (vs : List Byte) (h : Memory.wf s.dmem = true) :
    Memory.wf (s.dmemPutBytes a vs).dmem = true := by
  induction vs generalizing a s with
  | nil => exact h
  | cons v vs ih => exact ih _ _ (Memory.wf_put _ _ _ h)

theorem State.dmemPutBytes_below (a : Nat) (vs : List Byte) (bound : Nat) (hb : a + vs.length ≤ bound)
    (h : Memory.below bound s.dmem = true) : Memory.below bound (s.dmemPutBytes a vs).dmem = true := by
  induction vs generalizing a s with
  | nil => exact h
  | cons v vs ih =>
    simp only [List.length_cons] at hb
    exact ih _ _ (by omega) (Memory.below_put _ _ _ _ (by omega) h)

/-! ### Little-endian values -/

@[simp] theorem length_valueBytes (n v : Nat) : (valueBytes n v).length = n := by
  induction n generalizing v with
  | zero => rfl
  | succ n ih => simp [valueBytes, ih]

@[simp] theorem State.length_dmemBytes (a n : Nat) : (s.dmemBytes a n).length = n := by
  induction n generalizing a with
  | zero => rfl
  | succ n ih => simp [State.dmemBytes, ih]

/-- The value of a value's bytes is the value modulo 256^n. -/
theorem bytesValue_valueBytes (n v : Nat) : bytesValue (valueBytes n v) = v % 256 ^ n := by
  induction n generalizing v with
  | zero => simp [valueBytes, bytesValue, Nat.mod_one]
  | succ n ih =>
    simp only [valueBytes, bytesValue, ih, BitVec.toNat_ofNat, Nat.pow_succ', show (2 ^ 8 : Nat) = 256 from rfl]
    rw [Nat.mod_mul (x := v) (a := 256)]

/-- Reading back the bytes just stored. -/
theorem State.dmemBytes_dmemPutBytes (a : Nat) (vs : List Byte) :
    (s.dmemPutBytes a vs).dmemBytes a vs.length = vs := by
  induction vs generalizing a s with
  | nil => rfl
  | cons v vs ih =>
    simp only [List.length_cons, State.dmemBytes]
    rw [State.dmemPutBytes_cons, ih, State.dmemByte_dmemPutBytes_outside _ _ _ _ (by omega), State.dmemByte_dmemPut]
    simp

end Sys2Proof.Machine
end

