-- ==== Sys2Proof/Laws/Ops.lean ====
section
/-! SUPPORT. For each shared operation, what it can do, said once. -/

namespace Sys2Proof.Machine

variable (s : State)

/-! ### Wide registers -/

theorem truncW_lt (p : Params) (x : Wide) : (truncW p x).toNat < 2 ^ p.W := by
  unfold truncW
  simp only [BitVec.toNat_ofNat]
  exact lt_of_le_of_lt (Nat.mod_le _ _) (Nat.mod_lt _ (by positivity))

theorem truncW_of_lt (p : Params) (x : Wide) (h : x.toNat < 2 ^ p.W) : truncW p x = x := by
  unfold truncW
  rw [Nat.mod_eq_of_lt h]; simp

theorem truncW_truncW (p : Params) (x : Wide) : truncW p (truncW p x) = truncW p x :=
  truncW_of_lt p _ (truncW_lt p x)

theorem State.readW_lt (i : WReg) : (s.readW i).toNat < 2 ^ s.params.W := truncW_lt _ _

/-- What a wide register reads after a write: the low W bits written, or what it read before. -/
theorem State.readW_writeW (i j : WReg) (v : Wide) :
    (s.writeW i v).readW j = if j = i then truncW s.params v else s.readW j := by
  unfold State.readW
  simp only [State.writeW_wide, State.writeW_params, Vector.get_eq_getElem]
  by_cases h : j = i
  · subst h; simp [truncW_truncW]
  · rw [if_neg h, Vector.getElem_set_ne _ _ (fun e => h (Fin.ext e.symm))]

/-- What a scalar register reads after a write: S0 reads 0 and discards the write (10_state.md R36). -/
theorem State.readS_writeS (i j : SReg) (v : Half) :
    (s.writeS i v).readS j = if j = 0 then 0 else if j = i then v else s.readS j := by
  unfold State.readS
  simp only [State.writeS_scalar, Vector.get_eq_getElem]
  by_cases h0 : j = 0
  · simp [h0]
  · simp only [h0, if_false]
    by_cases hi : i = 0
    · have : j ≠ i := fun e => h0 (e.trans hi)
      rw [if_pos hi, if_neg this]
    · rw [if_neg hi]
      by_cases h : j = i
      · subst h; simp
      · rw [if_neg h, Vector.getElem_set_ne _ _ (fun e => h (Fin.ext e.symm))]

@[simp] theorem State.readS_zero : s.readS 0 = 0 := rfl

@[simp] theorem State.readW_advance (i : WReg) : s.advance.readW i = s.readW i := rfl
@[simp] theorem State.readW_jump (t : Half) (i : WReg) : (s.jump t).readW i = s.readW i := rfl
@[simp] theorem State.readW_setFlags (b c : Bool) (i : WReg) : (s.setFlags b c).readW i = s.readW i := rfl
@[simp] theorem State.readW_raiseFault (c : Cause) (w : Word) (i : WReg) : (s.raiseFault c w).readW i = s.readW i := rfl
@[simp] theorem State.readW_writeS (d : SReg) (v : Half) (i : WReg) : (s.writeS d v).readW i = s.readW i := by
  unfold State.readW; simp
@[simp] theorem State.readW_dmemPutBytes (a : Nat) (vs : List Byte) (i : WReg) :
    (s.dmemPutBytes a vs).readW i = s.readW i := by unfold State.readW; simp
@[simp] theorem State.readS_advance (i : SReg) : s.advance.readS i = s.readS i := rfl
@[simp] theorem State.readS_jump (t : Half) (i : SReg) : (s.jump t).readS i = s.readS i := rfl
@[simp] theorem State.readS_setFlags (b c : Bool) (i : SReg) : (s.setFlags b c).readS i = s.readS i := rfl
@[simp] theorem State.readS_raiseFault (c : Cause) (w : Word) (i : SReg) : (s.raiseFault c w).readS i = s.readS i := rfl
@[simp] theorem State.readS_writeW (d : WReg) (v : Wide) (i : SReg) : (s.writeW d v).readS i = s.readS i := rfl
@[simp] theorem State.readS_dmemPutBytes (a : Nat) (vs : List Byte) (i : SReg) :
    (s.dmemPutBytes a vs).readS i = s.readS i := by unfold State.readS; simp

/-- A byte of DMEM depends on DMEM alone. -/
theorem State.dmemByte_congr (s t : State) (h : t.dmem = s.dmem) (a : Nat) : t.dmemByte a = s.dmemByte a := by
  unfold State.dmemByte; rw [h]

/-! ### Memory accesses -/

/-- A read answers exactly when the access lies in DMEM (20_memory.md R72). -/
theorem State.memRead_cases (addr : Half) (n : Nat) :
    (addr.toNat + n ≤ s.params.dmemBytes ∧ s.memRead addr n = some (bytesValue (s.dmemBytes addr.toNat n))) ∨
    (s.params.dmemBytes < addr.toNat + n ∧ s.memRead addr n = none) := by
  unfold State.memRead
  split
  · exact .inr ⟨by omega, rfl⟩
  · exact .inl ⟨by omega, rfl⟩

/-- A write answers exactly when the access lies in DMEM (20_memory.md R73). -/
theorem State.memWrite_cases (addr : Half) (n v : Nat) :
    (addr.toNat + n ≤ s.params.dmemBytes ∧ s.memWrite addr n v = some (s.dmemPutBytes addr.toNat (valueBytes n v))) ∨
    (s.params.dmemBytes < addr.toNat + n ∧ s.memWrite addr n v = none) := by
  unfold State.memWrite
  split
  · exact .inr ⟨by omega, rfl⟩
  · exact .inl ⟨by omega, rfl⟩

/-- A store ends with its bytes stored, or with BADADDR (47_memory_ops.md R275). -/
theorem State.storeNext_cases (ea : Half) (n v : Nat) :
    (ea.toNat + n ≤ s.params.dmemBytes ∧
      s.storeNext ea n v = .next (s.dmemPutBytes ea.toNat (valueBytes n v)).advance) ∨
    (s.params.dmemBytes < ea.toNat + n ∧ s.storeNext ea n v = .next (s.raiseFault .badAddr (ea.zeroExtend 32))) := by
  unfold State.storeNext
  rcases s.memWrite_cases ea n v with ⟨h, e⟩ | ⟨h, e⟩ <;> rw [e]
  · exact .inl ⟨h, rfl⟩
  · exact .inr ⟨h, rfl⟩

/-- LDW ends with the register loaded, or with BADADDR. -/
theorem execLdw_cases (d : WReg) (a : SReg) (simm : Half) :
    ((s.effAddr a simm).toNat + s.params.wideBytes ≤ s.params.dmemBytes ∧
      execLdw d a simm s = .next (s.writeW d (BitVec.ofNat 128
        (bytesValue (s.dmemBytes (s.effAddr a simm).toNat s.params.wideBytes)))).advance) ∨
    (s.params.dmemBytes < (s.effAddr a simm).toNat + s.params.wideBytes ∧
      execLdw d a simm s = .next (s.raiseFault .badAddr ((s.effAddr a simm).zeroExtend 32))) := by
  unfold execLdw
  rcases s.memRead_cases (s.effAddr a simm) s.params.wideBytes with ⟨h, e⟩ | ⟨h, e⟩ <;> rw [e]
  · exact .inl ⟨h, rfl⟩
  · exact .inr ⟨h, rfl⟩

/-- LDS ends with the register loaded, or with BADADDR. -/
theorem execLds_cases (d a : SReg) (simm : Half) :
    ((s.effAddr a simm).toNat + 2 ≤ s.params.dmemBytes ∧
      execLds d a simm s = .next (s.writeS d (BitVec.ofNat 16
        (bytesValue (s.dmemBytes (s.effAddr a simm).toNat 2)))).advance) ∨
    (s.params.dmemBytes < (s.effAddr a simm).toNat + 2 ∧
      execLds d a simm s = .next (s.raiseFault .badAddr ((s.effAddr a simm).zeroExtend 32))) := by
  unfold execLds
  rcases s.memRead_cases (s.effAddr a simm) 2 with ⟨h, e⟩ | ⟨h, e⟩ <;> rw [e]
  · exact .inl ⟨h, rfl⟩
  · exact .inr ⟨h, rfl⟩

/-! ### Signed results -/

/-- A magnitude and a sign give a result exactly when the magnitude is in range (42_multiply.md R171). -/
theorem applySign_cases (p : Params) (q : Nat) (sg : Bool) :
    (q ≤ 2 ^ (p.W - 1) - 1 + sg.toNat ∧ applySign p q sg = some (if sg then encW p (-(q : Int)) else encW p q)) ∨
    (2 ^ (p.W - 1) - 1 + sg.toNat < q ∧ applySign p q sg = none) := by
  unfold applySign
  by_cases h : q > 2 ^ (p.W - 1) - 1 + sg.toNat
  · rw [if_pos h]; exact .inr ⟨h, rfl⟩
  · rw [if_neg h]; exact .inl ⟨by omega, rfl⟩

/-- MUL, FMUL, DIV and FDIV end with the register written, or with OVERFLOW. -/
theorem State.signedResult_cases (d a b : WReg) (shift q : Nat) (sg : Bool) :
    (q ≤ 2 ^ (s.params.W - 1) - 1 + sg.toNat ∧ s.signedResult d a b shift q sg =
      .next (s.writeW d (if sg then encW s.params (-(q : Int)) else encW s.params q)).advance) ∨
    (2 ^ (s.params.W - 1) - 1 + sg.toNat < q ∧
      s.signedResult d a b shift q sg = .next (s.raiseFault .overflow (arithInfo d a b shift))) := by
  unfold State.signedResult
  rcases applySign_cases s.params q sg with ⟨h, e⟩ | ⟨h, e⟩ <;> rw [e]
  · exact .inl ⟨h, rfl⟩
  · exact .inr ⟨h, rfl⟩

/-! ### Branches, fetch, the outside -/

/-- A conditional branch is taken or falls through (48_control.md R292). -/
theorem State.branchIf_cases (c : Cond) (simm : Half) :
    (c.holds s.z s.n = true ∧ s.branchIf c simm = s.jump (s.branchTarget simm)) ∨
    (c.holds s.z s.n = false ∧ s.branchIf c simm = s.advance) := by
  unfold State.branchIf
  cases c.holds s.z s.n <;> simp

/-- Fetch and decode: BADPC, ILLEGAL, or the instruction (48_control.md R299). -/
theorem State.fetchDecode_cases :
    (s.params.imemWords ≤ s.pc.toNat ∧ s.fetchDecode = .error (.badPC, s.pc.zeroExtend 32)) ∨
    (s.pc.toNat < s.params.imemWords ∧ (∃ e, decode s.params.N (s.imemWord s.pc.toNat) = .error e) ∧
      s.fetchDecode = .error (.illegal, s.imemWord s.pc.toNat)) ∨
    (s.pc.toNat < s.params.imemWords ∧ ∃ i, decode s.params.N (s.imemWord s.pc.toNat) = .ok i ∧ s.fetchDecode = .ok i) := by
  unfold State.fetchDecode
  by_cases h : s.pc.toNat ≥ s.params.imemWords
  · rw [if_pos h]; exact .inl ⟨h, rfl⟩
  · rw [if_neg h]
    cases e : decode s.params.N (s.imemWord s.pc.toNat) with
    | error x => exact .inr (.inl ⟨by omega, ⟨x, rfl⟩, rfl⟩)
    | ok i => exact .inr (.inr ⟨by omega, i, rfl, rfl⟩)

/-- The outside's turn: nothing waits, or the first event takes effect. -/
theorem State.hostTurn_cases :
    (s.hostQueue = [] ∧ s.hostTurn = s) ∨
    (∃ e rest, s.hostQueue = e :: rest ∧ s.hostTurn = { s with hostQueue := rest }.hostEvent e) := by
  unfold State.hostTurn
  cases h : s.hostQueue with
  | nil => exact .inl ⟨rfl, rfl⟩
  | cons e rest => exact .inr ⟨e, rest, rfl, rfl⟩

/-- What a host write of CTRL does (10_state.md R53). -/
theorem State.writeCtrl_cases (data : Word) :
    (data.getLsbD 1 = true ∧ s.writeCtrl data = { s with irqEn := data.getLsbD 2 }.softReset) ∨
    (data.getLsbD 1 = false ∧ data.getLsbD 0 = true ∧ s.busy = false ∧
      s.writeCtrl data = { s with irqEn := data.getLsbD 2 }.start) ∨
    (data.getLsbD 1 = false ∧ (data.getLsbD 0 = false ∨ s.busy = true) ∧
      s.writeCtrl data = { s with irqEn := data.getLsbD 2 }) := by
  unfold State.writeCtrl
  cases data.getLsbD 1 <;> cases data.getLsbD 0 <;> cases s.busy <;> simp

end Sys2Proof.Machine
end

