-- ==== Sys2Proof/Laws/PerInstr.lean ====
section
/-! SUPPORT. Facts about each instruction as syntax: where its opcode stands in its word. -/

namespace Sys2Proof.Laws

/-- A word built from fields in their ranges is the number the fields make. -/
theorem fieldsWord_toNat (op d a b imm : Nat) (ho : op < 64) (hd : d < 8) (ha : a < 8) (hb : b < 8) (hi : imm < 65536) :
    (fieldsWord op d a b imm).toNat = 2 ^ 26 * op + 2 ^ 23 * d + 2 ^ 20 * a + 2 ^ 17 * b + imm := by
  unfold fieldsWord
  simp only [BitVec.toNat_ofNat]
  omega

/-- The opcode field of a word built from fields in their ranges. -/
theorem fieldOp_fieldsWord (op d a b imm : Nat) (ho : op < 64) (hd : d < 8) (ha : a < 8) (hb : b < 8) (hi : imm < 65536) :
    fieldOp (fieldsWord op d a b imm) = op := by
  unfold fieldOp bits
  rw [fieldsWord_toNat _ _ _ _ _ ho hd ha hb hi]
  omega

/-- SETL's immediate is in range. -/
theorem setl_imm_lt (idx val : Byte) : 2 ^ 8 * idx.toNat + val.toNat < 65536 := by omega

/-- The word of an instruction holds the opcode of its row of R98. -/
def OpcodeField.Statement (i : Instr) : Prop :=
  ∃ r ∈ opcodeTable, r.mnemonic = i.mnemonic ∧ fieldOp (encode i) = fieldOp r.pattern

theorem OpcodeField.halt : Statement (.halt) :=
  ⟨⟨"HALT", 0x04000000#32, 0xFFFFFFFF#32⟩, by decide, rfl, fieldOp_fieldsWord _ _ _ _ _ (by decide) (by decide) (by decide) (by decide) (by decide)⟩

theorem OpcodeField.nop : Statement (.nop) :=
  ⟨⟨"NOP", 0x08000000#32, 0xFFFFFFFF#32⟩, by decide, rfl, fieldOp_fieldsWord _ _ _ _ _ (by decide) (by decide) (by decide) (by decide) (by decide)⟩

theorem OpcodeField.brk (code : Half) : Statement (.brk code) :=
  ⟨⟨"BRK", 0x0C000000#32, 0xFFFF0000#32⟩, by decide, rfl, fieldOp_fieldsWord _ _ _ _ _ (by decide) (by decide) (by decide) (by decide) code.isLt⟩

theorem OpcodeField.add (d a b : WReg) : Statement (.add d a b) :=
  ⟨⟨"ADD", 0x10000000#32, 0xFC01FFFF#32⟩, by decide, rfl, fieldOp_fieldsWord _ _ _ _ _ (by decide) d.isLt a.isLt b.isLt (by decide)⟩

theorem OpcodeField.sub (d a b : WReg) : Statement (.sub d a b) :=
  ⟨⟨"SUB", 0x14000000#32, 0xFC01FFFF#32⟩, by decide, rfl, fieldOp_fieldsWord _ _ _ _ _ (by decide) d.isLt a.isLt b.isLt (by decide)⟩

theorem OpcodeField.neg (d a : WReg) : Statement (.neg d a) :=
  ⟨⟨"NEG", 0x18000000#32, 0xFC0FFFFF#32⟩, by decide, rfl, fieldOp_fieldsWord _ _ _ _ _ (by decide) d.isLt a.isLt (by decide) (by decide)⟩

theorem OpcodeField.abs (d a : WReg) : Statement (.abs d a) :=
  ⟨⟨"ABS", 0x1C000000#32, 0xFC0FFFFF#32⟩, by decide, rfl, fieldOp_fieldsWord _ _ _ _ _ (by decide) d.isLt a.isLt (by decide) (by decide)⟩

theorem OpcodeField.mul (d a b : WReg) : Statement (.mul d a b) :=
  ⟨⟨"MUL", 0x20000000#32, 0xFC01FFFF#32⟩, by decide, rfl, fieldOp_fieldsWord _ _ _ _ _ (by decide) d.isLt a.isLt b.isLt (by decide)⟩

theorem OpcodeField.div (d a b : WReg) : Statement (.div d a b) :=
  ⟨⟨"DIV", 0x24000000#32, 0xFC01FFFF#32⟩, by decide, rfl, fieldOp_fieldsWord _ _ _ _ _ (by decide) d.isLt a.isLt b.isLt (by decide)⟩

theorem OpcodeField.isqrt (d a : WReg) : Statement (.isqrt d a) :=
  ⟨⟨"ISQRT", 0x28000000#32, 0xFC0FFFFF#32⟩, by decide, rfl, fieldOp_fieldsWord _ _ _ _ _ (by decide) d.isLt a.isLt (by decide) (by decide)⟩

theorem OpcodeField.fmul (d a b : WReg) : Statement (.fmul d a b) :=
  ⟨⟨"FMUL", 0x2C000000#32, 0xFC01FFFF#32⟩, by decide, rfl, fieldOp_fieldsWord _ _ _ _ _ (by decide) d.isLt a.isLt b.isLt (by decide)⟩

theorem OpcodeField.fdiv (d a b : WReg) : Statement (.fdiv d a b) :=
  ⟨⟨"FDIV", 0x30000000#32, 0xFC01FFFF#32⟩, by decide, rfl, fieldOp_fieldsWord _ _ _ _ _ (by decide) d.isLt a.isLt b.isLt (by decide)⟩

theorem OpcodeField.fsqrt (d a : WReg) : Statement (.fsqrt d a) :=
  ⟨⟨"FSQRT", 0x34000000#32, 0xFC0FFFFF#32⟩, by decide, rfl, fieldOp_fieldsWord _ _ _ _ _ (by decide) d.isLt a.isLt (by decide) (by decide)⟩

theorem OpcodeField.cmp (a b : WReg) : Statement (.cmp a b) :=
  ⟨⟨"CMP", 0x38000000#32, 0xFF81FFFF#32⟩, by decide, rfl, fieldOp_fieldsWord _ _ _ _ _ (by decide) (by decide) a.isLt b.isLt (by decide)⟩

theorem OpcodeField.tst (a : WReg) : Statement (.tst a) :=
  ⟨⟨"TST", 0x3C000000#32, 0xFF8FFFFF#32⟩, by decide, rfl, fieldOp_fieldsWord _ _ _ _ _ (by decide) (by decide) a.isLt (by decide) (by decide)⟩

theorem OpcodeField.mov (d a : WReg) : Statement (.mov d a) :=
  ⟨⟨"MOV", 0x40000000#32, 0xFC0FFFFF#32⟩, by decide, rfl, fieldOp_fieldsWord _ _ _ _ _ (by decide) d.isLt a.isLt (by decide) (by decide)⟩

theorem OpcodeField.ldi (d : WReg) (simm : Half) : Statement (.ldi d simm) :=
  ⟨⟨"LDI", 0x44000000#32, 0xFC7F0000#32⟩, by decide, rfl, fieldOp_fieldsWord _ _ _ _ _ (by decide) d.isLt (by decide) (by decide) simm.isLt⟩

theorem OpcodeField.setl (d : WReg) (idx val : Byte) : Statement (.setl d idx val) :=
  ⟨⟨"SETL", 0x48000000#32, 0xFC7F0000#32⟩, by decide, rfl, fieldOp_fieldsWord _ _ _ _ _ (by decide) d.isLt (by decide) (by decide) (setl_imm_lt _ _)⟩

theorem OpcodeField.wfroms (d : WReg) (a : SReg) : Statement (.wfroms d a) :=
  ⟨⟨"WFROMS", 0x4C000000#32, 0xFC0FFFFF#32⟩, by decide, rfl, fieldOp_fieldsWord _ _ _ _ _ (by decide) d.isLt a.isLt (by decide) (by decide)⟩

theorem OpcodeField.lshl (d a : WReg) (k : Half) : Statement (.lshl d a k) :=
  ⟨⟨"LSHL", 0x50000000#32, 0xFC0F0000#32⟩, by decide, rfl, fieldOp_fieldsWord _ _ _ _ _ (by decide) d.isLt a.isLt (by decide) k.isLt⟩

theorem OpcodeField.lshr (d a : WReg) (k : Half) : Statement (.lshr d a k) :=
  ⟨⟨"LSHR", 0x54000000#32, 0xFC0F0000#32⟩, by decide, rfl, fieldOp_fieldsWord _ _ _ _ _ (by decide) d.isLt a.isLt (by decide) k.isLt⟩

theorem OpcodeField.lsra (d a : WReg) (k : Half) : Statement (.lsra d a k) :=
  ⟨⟨"LSRA", 0x58000000#32, 0xFC0F0000#32⟩, by decide, rfl, fieldOp_fieldsWord _ _ _ _ _ (by decide) d.isLt a.isLt (by decide) k.isLt⟩

theorem OpcodeField.shl (d a : WReg) (count : Half) : Statement (.shl d a count) :=
  ⟨⟨"SHL", 0x5C000000#32, 0xFC0F0000#32⟩, by decide, rfl, fieldOp_fieldsWord _ _ _ _ _ (by decide) d.isLt a.isLt (by decide) count.isLt⟩

theorem OpcodeField.asr (d a : WReg) (count : Half) : Statement (.asr d a count) :=
  ⟨⟨"ASR", 0x60000000#32, 0xFC0F0000#32⟩, by decide, rfl, fieldOp_fieldsWord _ _ _ _ _ (by decide) d.isLt a.isLt (by decide) count.isLt⟩

theorem OpcodeField.ldw (d : WReg) (a : SReg) (simm : Half) : Statement (.ldw d a simm) :=
  ⟨⟨"LDW", 0x80000000#32, 0xFC0F0000#32⟩, by decide, rfl, fieldOp_fieldsWord _ _ _ _ _ (by decide) d.isLt a.isLt (by decide) simm.isLt⟩

theorem OpcodeField.stw (d : WReg) (a : SReg) (simm : Half) : Statement (.stw d a simm) :=
  ⟨⟨"STW", 0x84000000#32, 0xFC0F0000#32⟩, by decide, rfl, fieldOp_fieldsWord _ _ _ _ _ (by decide) d.isLt a.isLt (by decide) simm.isLt⟩

theorem OpcodeField.lds (d a : SReg) (simm : Half) : Statement (.lds d a simm) :=
  ⟨⟨"LDS", 0x88000000#32, 0xFC0F0000#32⟩, by decide, rfl, fieldOp_fieldsWord _ _ _ _ _ (by decide) d.isLt a.isLt (by decide) simm.isLt⟩

theorem OpcodeField.sts (d a : SReg) (simm : Half) : Statement (.sts d a simm) :=
  ⟨⟨"STS", 0x8C000000#32, 0xFC0F0000#32⟩, by decide, rfl, fieldOp_fieldsWord _ _ _ _ _ (by decide) d.isLt a.isLt (by decide) simm.isLt⟩

theorem OpcodeField.sli (d : SReg) (imm : Half) : Statement (.sli d imm) :=
  ⟨⟨"SLI", 0xA0000000#32, 0xFC7F0000#32⟩, by decide, rfl, fieldOp_fieldsWord _ _ _ _ _ (by decide) d.isLt (by decide) (by decide) imm.isLt⟩

theorem OpcodeField.saddi (d a : SReg) (simm : Half) : Statement (.saddi d a simm) :=
  ⟨⟨"SADDI", 0xA4000000#32, 0xFC0F0000#32⟩, by decide, rfl, fieldOp_fieldsWord _ _ _ _ _ (by decide) d.isLt a.isLt (by decide) simm.isLt⟩

theorem OpcodeField.sadd (d a b : SReg) : Statement (.sadd d a b) :=
  ⟨⟨"SADD", 0xA8000000#32, 0xFC01FFFF#32⟩, by decide, rfl, fieldOp_fieldsWord _ _ _ _ _ (by decide) d.isLt a.isLt b.isLt (by decide)⟩

theorem OpcodeField.ssub (d a b : SReg) : Statement (.ssub d a b) :=
  ⟨⟨"SSUB", 0xAC000000#32, 0xFC01FFFF#32⟩, by decide, rfl, fieldOp_fieldsWord _ _ _ _ _ (by decide) d.isLt a.isLt b.isLt (by decide)⟩

theorem OpcodeField.sshl (d a : SReg) (count : Half) : Statement (.sshl d a count) :=
  ⟨⟨"SSHL", 0xB0000000#32, 0xFC0F0000#32⟩, by decide, rfl, fieldOp_fieldsWord _ _ _ _ _ (by decide) d.isLt a.isLt (by decide) count.isLt⟩

theorem OpcodeField.sasr (d a : SReg) (count : Half) : Statement (.sasr d a count) :=
  ⟨⟨"SASR", 0xB4000000#32, 0xFC0F0000#32⟩, by decide, rfl, fieldOp_fieldsWord _ _ _ _ _ (by decide) d.isLt a.isLt (by decide) count.isLt⟩

theorem OpcodeField.stst (a : SReg) : Statement (.stst a) :=
  ⟨⟨"STST", 0xB8000000#32, 0xFF8FFFFF#32⟩, by decide, rfl, fieldOp_fieldsWord _ _ _ _ _ (by decide) (by decide) a.isLt (by decide) (by decide)⟩

theorem OpcodeField.scmp (a b : SReg) : Statement (.scmp a b) :=
  ⟨⟨"SCMP", 0xBC000000#32, 0xFF81FFFF#32⟩, by decide, rfl, fieldOp_fieldsWord _ _ _ _ _ (by decide) (by decide) a.isLt b.isLt (by decide)⟩

theorem OpcodeField.bra (simm : Half) : Statement (.bra simm) :=
  ⟨⟨"BRA", 0xC0000000#32, 0xFFFF0000#32⟩, by decide, rfl, fieldOp_fieldsWord _ _ _ _ _ (by decide) (by decide) (by decide) (by decide) simm.isLt⟩

theorem OpcodeField.beq (simm : Half) : Statement (.beq simm) :=
  ⟨⟨"BEQ", 0xC4000000#32, 0xFFFF0000#32⟩, by decide, rfl, fieldOp_fieldsWord _ _ _ _ _ (by decide) (by decide) (by decide) (by decide) simm.isLt⟩

theorem OpcodeField.bne (simm : Half) : Statement (.bne simm) :=
  ⟨⟨"BNE", 0xC8000000#32, 0xFFFF0000#32⟩, by decide, rfl, fieldOp_fieldsWord _ _ _ _ _ (by decide) (by decide) (by decide) (by decide) simm.isLt⟩

theorem OpcodeField.blt (simm : Half) : Statement (.blt simm) :=
  ⟨⟨"BLT", 0xCC000000#32, 0xFFFF0000#32⟩, by decide, rfl, fieldOp_fieldsWord _ _ _ _ _ (by decide) (by decide) (by decide) (by decide) simm.isLt⟩

theorem OpcodeField.bge (simm : Half) : Statement (.bge simm) :=
  ⟨⟨"BGE", 0xD0000000#32, 0xFFFF0000#32⟩, by decide, rfl, fieldOp_fieldsWord _ _ _ _ _ (by decide) (by decide) (by decide) (by decide) simm.isLt⟩

theorem OpcodeField.bgt (simm : Half) : Statement (.bgt simm) :=
  ⟨⟨"BGT", 0xD4000000#32, 0xFFFF0000#32⟩, by decide, rfl, fieldOp_fieldsWord _ _ _ _ _ (by decide) (by decide) (by decide) (by decide) simm.isLt⟩

theorem OpcodeField.ble (simm : Half) : Statement (.ble simm) :=
  ⟨⟨"BLE", 0xD8000000#32, 0xFFFF0000#32⟩, by decide, rfl, fieldOp_fieldsWord _ _ _ _ _ (by decide) (by decide) (by decide) (by decide) simm.isLt⟩

theorem OpcodeField.jal (d : SReg) (simm : Half) : Statement (.jal d simm) :=
  ⟨⟨"JAL", 0xDC000000#32, 0xFC7F0000#32⟩, by decide, rfl, fieldOp_fieldsWord _ _ _ _ _ (by decide) d.isLt (by decide) (by decide) simm.isLt⟩

theorem OpcodeField.jr (a : SReg) : Statement (.jr a) :=
  ⟨⟨"JR", 0xE0000000#32, 0xFF8FFFFF#32⟩, by decide, rfl, fieldOp_fieldsWord _ _ _ _ _ (by decide) (by decide) a.isLt (by decide) (by decide)⟩

end Sys2Proof.Laws
end

