-- ==== Sys2Proof/Machine/AsmParser.lean ====
section
/-! DEFINITION. Reading assembly text (30_encoding.md R102): numbers, operands, lines, programs. Texts are lists of characters. It is no
part of the step. -/

namespace Sys2Proof.Machine

/-- A run of characters of an assembly text. -/
abbrev Chars := List Char

/-! ### Numbers -/

/-- The value of a decimal or hexadecimal digit. -/
def digitValue (c : Char) : Option Nat :=
  if 48 ≤ c.toNat ∧ c.toNat ≤ 57 then some (c.toNat - 48)
  else if 65 ≤ c.toNat ∧ c.toNat ≤ 70 then some (c.toNat - 55)
  else if 97 ≤ c.toNat ∧ c.toNat ≤ 102 then some (c.toNat - 87)
  else none

/-- The value of digits in a base, after those already read. -/
def digitsValue (base : Nat) : Nat → Chars → Option Nat
  | acc, [] => some acc
  | acc, c :: cs =>
    match digitValue c with
    | some d => if d < base then digitsValue base (acc * base + d) cs else none
    | none => none

/-- A number without a sign: decimal, or hexadecimal after `0x` (R102). -/
def naturalOf : Chars → Option Nat
  | [] => none
  | '0' :: 'x' :: c :: cs => digitsValue 16 0 (c :: cs)
  | c :: cs => digitsValue 10 0 (c :: cs)

/-- A number: decimal and possibly negative, or hexadecimal (R102). -/
def integerOf : Chars → Option Int
  | '-' :: c :: cs => (digitsValue 10 0 (c :: cs)).map fun n => -(n : Int)
  | cs => (naturalOf cs).map fun n => (n : Int)

/-- The number, if it lies in a range. -/
def inRange (lo hi : Int) (v : Int) : Option Int := if lo ≤ v ∧ v ≤ hi then some v else none

/-! ### Operands -/

/-- A register's number after its letter. -/
def regOf (letter : Char) : Chars → Option (Fin 8)
  | [l, c] =>
    if l = letter ∧ 48 ≤ c.toNat ∧ c.toNat ≤ 55 then some ⟨(c.toNat - 48) % 8, Nat.mod_lt _ (by decide)⟩ else none
  | _ => none

/-- `W0` to `W7`. -/
def wOf : Chars → Option WReg := regOf 'W'

/-- `S0` to `S7`. -/
def sOf : Chars → Option SReg := regOf 'S'

/-- `#` and a number in a range (R102). -/
def hashOf (lo hi : Int) : Chars → Option Int
  | '#' :: cs => (integerOf cs).bind (inRange lo hi)
  | _ => none

/-- A signed immediate, -32768 to 32767 (R96). -/
def simmOf (cs : Chars) : Option Half := (hashOf (-32768) 32767 cs).map (BitVec.ofInt 16)

/-- A count or a BRK code, 0 to 65535 (R96). -/
def countOf (cs : Chars) : Option Half := (hashOf 0 65535 cs).map (BitVec.ofInt 16)

/-- A 16-bit pattern, signed or unsigned: SLI's immediate (46_scalar.md R250). -/
def patternOf (cs : Chars) : Option Half := (hashOf (-32768) 65535 cs).map (BitVec.ofInt 16)

/-- SETL's index and value, 0 to 255 each (R96). -/
def byteOf (cs : Chars) : Option Byte := (hashOf 0 255 cs).map (BitVec.ofInt 8)

/-- `off(Sa)`, or `(Sa)` for `0(Sa)`: the offset and the base (R102). -/
def memoryOf (cs : Chars) : Option (Half × SReg) :=
  let off := cs.takeWhile (· ≠ '(')
  match cs.dropWhile (· ≠ '(') with
  | ['(', s, d, ')'] =>
    match sOf [s, d], (if off = [] then some 0 else integerOf off).bind (inRange (-32768) 32767) with
    | some a, some o => some (BitVec.ofInt 16 o, a)
    | _, _ => none
  | _ => none

/-- A character of a label's name. -/
def nameChar (c : Char) : Bool :=
  (48 ≤ c.toNat && c.toNat ≤ 57) || (65 ≤ c.toNat && c.toNat ≤ 90) || (97 ≤ c.toNat && c.toNat ≤ 122) || c = '_'

/-- A branch or JAL target: `.`, `.+n`, `.-n`, or a label (R102; R291 writes `.` for offset 0). -/
def targetItem (u : LabelUse) : Chars → Option AsmItem
  | ['.'] => some (.instr (u.instr 0))
  | '.' :: '+' :: cs => ((naturalOf cs).bind fun n => inRange (-32768) 32767 n).map fun o => .instr (u.instr (BitVec.ofInt 16 o))
  | '.' :: '-' :: cs => ((naturalOf cs).bind fun n => inRange (-32768) 32767 (-(n : Int))).map fun o => .instr (u.instr (BitVec.ofInt 16 o))
  | [] => none
  | cs => if cs.all nameChar then some (.toLabel u (String.ofList cs)) else none

/-! ### Lines -/

/-- A blank. -/
def blank (c : Char) : Bool := c = ' ' || c = '\t' || c = '\r'

/-- The text without blanks at either end. -/
def trim (cs : Chars) : Chars := ((cs.dropWhile blank).reverse.dropWhile blank).reverse

/-- The pieces of a text between separators. -/
def splitAtChar (sep : Char) : Chars → List Chars
  | [] => [[]]
  | c :: cs =>
    if c = sep then [] :: splitAtChar sep cs
    else
      match splitAtChar sep cs with
      | piece :: rest => (c :: piece) :: rest
      | [] => [[c]]

/-- Operands `Wd, Wa, Wb`. -/
def asWWW (f : WReg → WReg → WReg → Instr) : List Chars → Option AsmItem
  | [d, a, b] => do return .instr (f (← wOf d) (← wOf a) (← wOf b))
  | _ => none

/-- Operands `Wd, Wa`, or `Wa, Wb` for CMP. -/
def asWW (f : WReg → WReg → Instr) : List Chars → Option AsmItem
  | [d, a] => do return .instr (f (← wOf d) (← wOf a))
  | _ => none

/-- Operands `Wd, Wa, #n`. -/
def asWWCount (f : WReg → WReg → Half → Instr) : List Chars → Option AsmItem
  | [d, a, n] => do return .instr (f (← wOf d) (← wOf a) (← countOf n))
  | _ => none

/-- Operands `Wd, off(Sa)`. -/
def asWMem (f : WReg → SReg → Half → Instr) : List Chars → Option AsmItem
  | [d, m] => do
    let r ← wOf d
    let (o, a) ← memoryOf m
    return .instr (f r a o)
  | _ => none

/-- Operands `Sd, off(Sa)`. -/
def asSMem (f : SReg → SReg → Half → Instr) : List Chars → Option AsmItem
  | [d, m] => do
    let r ← sOf d
    let (o, a) ← memoryOf m
    return .instr (f r a o)
  | _ => none

/-- Operands `Sd, Sa, Sb`. -/
def asSSS (f : SReg → SReg → SReg → Instr) : List Chars → Option AsmItem
  | [d, a, b] => do return .instr (f (← sOf d) (← sOf a) (← sOf b))
  | _ => none

/-- Operands `Sd, Sa, #n`, the immediate read by `imm`. -/
def asSSImm (imm : Chars → Option Half) (f : SReg → SReg → Half → Instr) : List Chars → Option AsmItem
  | [d, a, n] => do return .instr (f (← sOf d) (← sOf a) (← imm n))
  | _ => none

/-- One operand, a target. -/
def asTarget (u : LabelUse) : List Chars → Option AsmItem
  | [t] => targetItem u t
  | _ => none

/-- An instruction, a pseudo-instruction (R103) or the directive `.word` (R102), from its mnemonic and operands. -/
def statementOf (mnemonic : String) (ops : List Chars) : Option AsmItem :=
  match mnemonic, ops with
  | "HALT", [] => some (.instr .halt)
  | "NOP", [] => some (.instr .nop)
  | "BRK", [c] => do return .instr (.brk (← countOf c))
  | "ADD", _ => asWWW .add ops
  | "SUB", _ => asWWW .sub ops
  | "NEG", _ => asWW .neg ops
  | "ABS", _ => asWW .abs ops
  | "MUL", _ => asWWW .mul ops
  | "DIV", _ => asWWW .div ops
  | "ISQRT", _ => asWW .isqrt ops
  | "FMUL", _ => asWWW .fmul ops
  | "FDIV", _ => asWWW .fdiv ops
  | "FSQRT", _ => asWW .fsqrt ops
  | "CMP", _ => asWW .cmp ops
  | "TST", [a] => do return .instr (.tst (← wOf a))
  | "MOV", _ => asWW .mov ops
  | "LDI", [d, i] => do return .instr (.ldi (← wOf d) (← simmOf i))
  | "SETL", [d, i, v] => do return .instr (.setl (← wOf d) (← byteOf i) (← byteOf v))
  | "WFROMS", [d, a] => do return .instr (.wfroms (← wOf d) (← sOf a))
  | "LSHL", _ => asWWCount .lshl ops
  | "LSHR", _ => asWWCount .lshr ops
  | "LSRA", _ => asWWCount .lsra ops
  | "SHL", _ => asWWCount .shl ops
  | "ASR", _ => asWWCount .asr ops
  | "LDW", _ => asWMem .ldw ops
  | "STW", _ => asWMem .stw ops
  | "LDS", _ => asSMem .lds ops
  | "STS", _ => asSMem .sts ops
  | "SLI", [d, i] => do return .instr (.sli (← sOf d) (← patternOf i))
  | "SADDI", _ => asSSImm simmOf .saddi ops
  | "SADD", _ => asSSS .sadd ops
  | "SSUB", _ => asSSS .ssub ops
  | "SSHL", _ => asSSImm countOf .sshl ops
  | "SASR", _ => asSSImm countOf .sasr ops
  | "STST", [a] => do return .instr (.stst (← sOf a))
  | "SCMP", [a, b] => do return .instr (.scmp (← sOf a) (← sOf b))
  | "BRA", _ => asTarget .bra ops
  | "BEQ", _ => asTarget .beq ops
  | "BNE", _ => asTarget .bne ops
  | "BLT", _ => asTarget .blt ops
  | "BGE", _ => asTarget .bge ops
  | "BGT", _ => asTarget .bgt ops
  | "BLE", _ => asTarget .ble ops
  | "JAL", [d, t] => do targetItem (.jal (← sOf d)) t
  | "JR", [a] => do return .instr (.jr (← sOf a))
  | "FROM", [d, a] => do return .pseudo (.from (← wOf d) (← wOf a))
  | "FROMI", [d, i] => do return .pseudo (.fromI (← wOf d) (← simmOf i))
  | "CLR", [d] => do return .pseudo (.clr (← wOf d))
  | "MOVS", [d, a] => do return .pseudo (.movs (← sOf d) (← sOf a))
  | "DEC", [d] => do return .pseudo (.dec (← sOf d))
  | "CALL", _ => asTarget .call ops
  | "RET", [] => some (.pseudo .ret)
  | "LT", [a, b] => do return .pseudo (.lt (← wOf a) (← wOf b))
  | ".word", [v] => (naturalOf v).bind fun n => if n < 2 ^ 32 then some (.word (BitVec.ofNat 32 n)) else none
  | _, _ => none

/-- What follows the label, if any: nothing, or a statement. -/
def bodyItems (cs : Chars) : Option (List AsmItem) :=
  match trim cs with
  | [] => some []
  | body =>
    let args := trim (body.dropWhile fun c => !blank c)
    let ops := if args = [] then [] else (splitAtChar ',' args).map trim
    (statementOf (String.ofList (body.takeWhile fun c => !blank c)) ops).map fun i => [i]

/-- The items of one line: a label `name:` at its start, if any, then a statement, if any; a comment runs from `;` (R102). -/
def lineItems (line : Chars) : Option (List AsmItem) :=
  let code := line.takeWhile (· ≠ ';')
  let name := code.takeWhile nameChar
  match name, code.drop name.length with
  | c :: cs, ':' :: rest => (bodyItems rest).map fun is => .label (String.ofList (c :: cs)) :: is
  | _, _ => bodyItems code

/-- The items of a list of lines. -/
def linesItems : List Chars → Option (List AsmItem)
  | [] => some []
  | line :: lines =>
    match lineItems line, linesItems lines with
    | some is, some more => some (is ++ more)
    | _, _ => none

/-- The IMEM image of an assembly text; none where a line is no line of R102. -/
def assembleText (p : Params) (text : Chars) : Option (List Word) :=
  (linesItems (splitAtChar '\n' text)).bind (assemble p)

end Sys2Proof.Machine
end

