-- ==== Sys2Proof/Tests/Slice0.lean ====
section
/-! SUPPORT. Tests. Expected values come from spec/95_test_vectors.md (the vector's id is in the comment) or are worked out by hand from
the rule named; decoded words are those of its section 2. Then a witness for the hypotheses of each obligation that has any. -/

namespace Sys2Proof.Tests

open Sys2Proof.Machine

/-- The parameters of the vectors LS34 to LS36: 4-bit limbs, 32-bit registers. -/
def narrow : Params := { Params.reference with LB := 4, N := 8, SL := 4 }

/-- The machine after reset, with these wide registers, scalar registers and DMEM bytes. -/
def machine (ws : List (WReg × Nat)) (ss : List (SReg × Nat)) (mem : List Host.Cell) : State :=
  let s := ws.foldl (fun s x => s.writeW x.1 (BitVec.ofNat 128 x.2)) State.reset
  { ss.foldl (fun s x => s.writeS x.1 (BitVec.ofNat 16 x.2)) s with dmem := mem }

/-- The state after one step that runs the word `w`. -/
def after (s : State) (w : Nat) : Option State :=
  match step (s.withFetchWord 32 w) with
  | .next t => some t
  | .fault _ => none
  | .refused _ => none

/-- After one step: wide register `d` and pc. -/
def wideAfter (s : State) (w : Nat) (d : WReg) : Option (Nat × Nat) := (after s w).map fun t => ((t.readW d).toNat, t.pc.toNat)

/-- After one step: scalar register `d` and pc. -/
def scalarAfter (s : State) (w : Nat) (d : SReg) : Option (Nat × Nat) := (after s w).map fun t => ((t.readS d).toNat, t.pc.toNat)

/-- After one step: Z, N and pc. -/
def flagsAfter (s : State) (w : Nat) : Option (Bool × Bool × Nat) := (after s w).map fun t => (t.z, t.n, t.pc.toNat)

/-- After one step: pc and STATUS. -/
def pcAfter (s : State) (w : Nat) : Option (Nat × Nat) := (after s w).map fun t => (t.pc.toNat, t.statusWord.toNat)

/-- After one step: STATUS, FAULT_CAUSE, FAULT_PC and FAULT_INFO. -/
def faultAfter (s : State) (w : Nat) : Option (Nat × Nat × Nat × Nat) :=
  (after s w).map fun t => (t.statusWord.toNat, t.faultCause.toNat, t.faultPC.toNat, t.faultInfo.toNat)

/-! ### Well-formedness: each check refuses an ill-formed term -/

theorem test_wf_legal_reference : Params.reference.legal = true := by decide

theorem test_wf_legal_narrow : narrow.legal = true := by decide

theorem test_wf_thirty_bits : { Params.reference with LB := 15, N := 2 }.widthLegal = false := by decide

theorem test_wf_limb_width : { Params.reference with LB := 16, N := 2 }.widthLegal = false := by decide

theorem test_wf_limb_count : { Params.reference with N := 1, SL := 0 }.widthLegal = false := by decide

theorem test_wf_too_narrow : { Params.reference with LB := 4, N := 2, SL := 1 }.widthLegal = false := by decide

theorem test_wf_too_wide : { Params.reference with N := 17 }.widthLegal = false := by decide

theorem test_wf_not_whole_bytes : { Params.reference with LB := 4, N := 5 }.widthLegal = false := by decide

theorem test_wf_scale : { Params.reference with SL := 4 }.sizesLegal = false := by decide

theorem test_wf_no_passes : { Params.reference with sqrtIters := 0 }.sizesLegal = false := by decide

theorem test_wf_too_many_passes : { Params.reference with sqrtIters := 256 }.sizesLegal = false := by decide

theorem test_wf_no_imem : { Params.reference with imemWords := 0 }.sizesLegal = false := by decide

theorem test_wf_large_imem : { Params.reference with imemWords := 65537 }.sizesLegal = false := by decide

theorem test_wf_no_dmem : { Params.reference with dmemBytes := 0 }.sizesLegal = false := by decide

theorem test_wf_large_dmem : { Params.reference with dmemBytes := 65540 }.sizesLegal = false := by decide

theorem test_wf_dmem_not_words : { Params.reference with dmemBytes := 4098 }.sizesLegal = false := by decide

theorem test_wf_setl_index : (Instr.setl 5 4 0x01).wellFormed 4 = false := by decide

theorem test_wf_setl_top_index : (Instr.setl 5 3 0x01).wellFormed 4 = true := by decide

/-- `step` refuses a 30-bit engine by name (90_conflicts.md C7), and an illegal memory size. -/
theorem test_step_checks_parameters :
    step { State.reset with params := { Params.reference with LB := 15, N := 2 } } = .refused .unsupportedWidth ∧
    step { State.reset with params := { Params.reference with dmemBytes := 4098 } } = .fault .parameterOutOfRange := ⟨rfl, rfl⟩

/-! ### Decoding: one word for every constructor (section 2) -/

theorem test_decode_halt : decode 4 0x04000000#32 = .ok .halt ∧ encode .halt = 0x04000000#32 := by decide

theorem test_decode_nop : decode 4 0x08000000#32 = .ok .nop ∧ encode .nop = 0x08000000#32 := by decide

theorem test_decode_brk : decode 4 0x0C000042#32 = .ok (.brk 0x42) ∧ encode (.brk 0x42) = 0x0C000042#32 := by decide

theorem test_decode_add : decode 4 0x10A60000#32 = .ok (.add 1 2 3) ∧ encode (.add 1 2 3) = 0x10A60000#32 := by decide

theorem test_decode_sub : decode 4 0x17FE0000#32 = .ok (.sub 7 7 7) ∧ encode (.sub 7 7 7) = 0x17FE0000#32 := by decide

theorem test_decode_neg : decode 4 0x18A00000#32 = .ok (.neg 1 2) ∧ encode (.neg 1 2) = 0x18A00000#32 := by decide

theorem test_decode_abs : decode 4 0x1C700000#32 = .ok (.abs 0 7) ∧ encode (.abs 0 7) = 0x1C700000#32 := by decide

theorem test_decode_mul : decode 4 0x21940000#32 = .ok (.mul 3 1 2) ∧ encode (.mul 3 1 2) = 0x21940000#32 := by decide

theorem test_decode_div : decode 4 0x265C0000#32 = .ok (.div 4 5 6) ∧ encode (.div 4 5 6) = 0x265C0000#32 := by decide

theorem test_decode_isqrt : decode 4 0x29100000#32 = .ok (.isqrt 2 1) ∧ encode (.isqrt 2 1) = 0x29100000#32 := by decide

theorem test_decode_fmul : decode 4 0x2D940000#32 = .ok (.fmul 3 1 2) ∧ encode (.fmul 3 1 2) = 0x2D940000#32 := by decide

theorem test_decode_fdiv : decode 4 0x31940000#32 = .ok (.fdiv 3 1 2) ∧ encode (.fdiv 3 1 2) = 0x31940000#32 := by decide

theorem test_decode_fsqrt : decode 4 0x37500000#32 = .ok (.fsqrt 6 5) ∧ encode (.fsqrt 6 5) = 0x37500000#32 := by decide

theorem test_decode_cmp : decode 4 0x38140000#32 = .ok (.cmp 1 2) ∧ encode (.cmp 1 2) = 0x38140000#32 := by decide

theorem test_decode_tst : decode 4 0x3C400000#32 = .ok (.tst 4) ∧ encode (.tst 4) = 0x3C400000#32 := by decide

theorem test_decode_mov : decode 4 0x41900000#32 = .ok (.mov 3 1) ∧ encode (.mov 3 1) = 0x41900000#32 := by decide

theorem test_decode_ldi : decode 4 0x4480FED4#32 = .ok (.ldi 1 (-300)) ∧ encode (.ldi 1 (-300)) = 0x4480FED4#32 := by decide

theorem test_decode_setl : decode 4 0x4A800380#32 = .ok (.setl 5 3 0x80) ∧ encode (.setl 5 3 0x80) = 0x4A800380#32 := by decide

theorem test_decode_wfroms : decode 4 0x4D100000#32 = .ok (.wfroms 2 1) ∧ encode (.wfroms 2 1) = 0x4D100000#32 := by decide

theorem test_decode_lshl : decode 4 0x50900002#32 = .ok (.lshl 1 1 2) ∧ encode (.lshl 1 1 2) = 0x50900002#32 := by decide

theorem test_decode_lshr : decode 4 0x55100001#32 = .ok (.lshr 2 1 1) ∧ encode (.lshr 2 1 1) = 0x55100001#32 := by decide

theorem test_decode_lsra : decode 4 0x59100002#32 = .ok (.lsra 2 1 2) ∧ encode (.lsra 2 1 2) = 0x59100002#32 := by decide

theorem test_decode_shl : decode 4 0x5D100001#32 = .ok (.shl 2 1 1) ∧ encode (.shl 2 1 1) = 0x5D100001#32 := by decide

theorem test_decode_asr : decode 4 0x6110001F#32 = .ok (.asr 2 1 31) ∧ encode (.asr 2 1 31) = 0x6110001F#32 := by decide

theorem test_decode_ldw : decode 4 0x81100000#32 = .ok (.ldw 2 1 0) ∧ encode (.ldw 2 1 0) = 0x81100000#32 := by decide

theorem test_decode_stw : decode 4 0x84800010#32 = .ok (.stw 1 0 16) ∧ encode (.stw 1 0 16) = 0x84800010#32 := by decide

theorem test_decode_lds : decode 4 0x89C0FFFE#32 = .ok (.lds 3 4 (-2)) ∧ encode (.lds 3 4 (-2)) = 0x89C0FFFE#32 := by decide

theorem test_decode_sts : decode 4 0x8D800FFE#32 = .ok (.sts 3 0 0x0FFE) ∧ encode (.sts 3 0 0x0FFE) = 0x8D800FFE#32 := by decide

theorem test_decode_sli : decode 4 0xA080FFFF#32 = .ok (.sli 1 0xFFFF) ∧ encode (.sli 1 0xFFFF) = 0xA080FFFF#32 := by decide

theorem test_decode_saddi : decode 4 0xA520FFFF#32 = .ok (.saddi 2 2 (-1)) ∧ encode (.saddi 2 2 (-1)) = 0xA520FFFF#32 := by decide

theorem test_decode_sadd : decode 4 0xA8A60000#32 = .ok (.sadd 1 2 3) ∧ encode (.sadd 1 2 3) = 0xA8A60000#32 := by decide

theorem test_decode_ssub : decode 4 0xACA60000#32 = .ok (.ssub 1 2 3) ∧ encode (.ssub 1 2 3) = 0xACA60000#32 := by decide

theorem test_decode_sshl : decode 4 0xB1100001#32 = .ok (.sshl 2 1 1) ∧ encode (.sshl 2 1 1) = 0xB1100001#32 := by decide

theorem test_decode_sasr : decode 4 0xB5100001#32 = .ok (.sasr 2 1 1) ∧ encode (.sasr 2 1 1) = 0xB5100001#32 := by decide

theorem test_decode_stst : decode 4 0xB8200000#32 = .ok (.stst 2) ∧ encode (.stst 2) = 0xB8200000#32 := by decide

theorem test_decode_scmp : decode 4 0xBC140000#32 = .ok (.scmp 1 2) ∧ encode (.scmp 1 2) = 0xBC140000#32 := by decide

theorem test_decode_bra : decode 4 0xC0000000#32 = .ok (.bra 0) ∧ encode (.bra 0) = 0xC0000000#32 := by decide

theorem test_decode_beq : decode 4 0xC4000003#32 = .ok (.beq 3) ∧ encode (.beq 3) = 0xC4000003#32 := by decide

theorem test_decode_bne : decode 4 0xC800FFFB#32 = .ok (.bne (-5)) ∧ encode (.bne (-5)) = 0xC800FFFB#32 := by decide

theorem test_decode_blt : decode 4 0xCC000003#32 = .ok (.blt 3) ∧ encode (.blt 3) = 0xCC000003#32 := by decide

theorem test_decode_bge : decode 4 0xD0000001#32 = .ok (.bge 1) ∧ encode (.bge 1) = 0xD0000001#32 := by decide

theorem test_decode_bgt : decode 4 0xD400FFFF#32 = .ok (.bgt (-1)) ∧ encode (.bgt (-1)) = 0xD400FFFF#32 := by decide

theorem test_decode_ble : decode 4 0xD8000002#32 = .ok (.ble 2) ∧ encode (.ble 2) = 0xD8000002#32 := by decide

theorem test_decode_jal : decode 4 0xDF800004#32 = .ok (.jal 7 4) ∧ encode (.jal 7 4) = 0xDF800004#32 := by decide

theorem test_decode_jr : decode 4 0xE0700000#32 = .ok (.jr 7) ∧ encode (.jr 7) = 0xE0700000#32 := by decide

/-- Illegal words, each for the reason section 2 gives. -/
theorem test_decode_reserved_opcodes :
    [0x00000000#32, 0x64000000#32, 0x90000000#32, 0xFC000000#32].map (decode 4) = List.replicate 4 (.error .reservedOpcode) := by decide

theorem test_decode_nonzero_fields :
    [0x08000001#32, 0x04800000#32, 0x10A70000#32, 0x10A60001#32, 0x18A60000#32, 0x38940000#32, 0x44A00005#32, 0x50920002#32, 0xC0800000#32,
      0xE0720000#32].map (decode 4) = List.replicate 10 (.error .nonzeroField) := by decide

theorem test_decode_setl_index : decode 4 0x48800400#32 = .error .limbIndex ∧ decode 8 0x4A800801#32 = .error .limbIndex := by decide

/-- The host's numbering of a row's bits, and a word where the next step fetches. -/
theorem test_table_word : decodeTableWord 32 0x10A60000 = some (.add 1 2 3) ∧ decodeTableWord 32 0 = none := by decide

theorem test_fetch_word : (State.reset.withFetchWord 32 0x08000000).imemWord 0 = 0x08000000#32 := by decide

/-- R102 and R103: `CLR W1`, a backward BNE to a label, and `FROMI W2, #3`. -/
theorem test_assemble :
    assemble Params.reference [.label "top", .pseudo (.clr 1), .toLabel .bne "top", .pseudo (.fromI 2 3), .instr .halt] =
      some [0x44800000#32, 0xC800FFFF#32, 0x45000003#32, 0x51200002#32, 0x04000000#32] := by decide

/-- R102's syntax: labels, comments, a blank line. -/
theorem test_assemble_text :
    assembleText Params.reference "top: CLR W1 ; a comment\n  BNE top\n\nFROMI W2, #3\n .word 0xFFFFFFFF".toList =
      some [0x44800000#32, 0xC800FFFF#32, 0x45000003#32, 0x51200002#32, 0xFFFFFFFF#32] := by decide

/-- The lines of section 2, read. -/
theorem test_read_lines :
    ["LDI W1, #-300", "SETL W5, #3, #0x80", "LDS S3, -2(S4)", "STS S3, 0x0FFE(S0)", "SLI S1, #0xFFFF", "BRA .", "BNE .-5", "JAL S7, .+4"].map
      (fun line => (assembleText Params.reference line.toList)) =
    [0x4480FED4#32, 0x4A800380#32, 0x89C0FFFE#32, 0x8D800FFE#32, 0xA080FFFF#32, 0xC0000000#32, 0xC800FFFB#32, 0xDF800004#32].map
      (fun v => some [v]) := by decide

/-- An instruction written and read again. -/
theorem test_write_read :
    [Instr.halt, .brk 66, .add 1 2 3, .neg 1 2, .tst 4, .ldi 1 (-300), .setl 5 3 128, .wfroms 2 1, .lshl 1 1 2, .stw 1 0 16, .saddi 2 2 (-1),
      .ssub 1 2 3, .sasr 2 1 1, .stst 2, .scmp 1 2, .ble (-2), .jr 7].all
      (fun i => lineItems (asmText i).toList = some [.instr i]) = true := by decide

theorem test_asm_text : asmText (.lds 3 4 (-2)) = "LDS S3, -2(S4)" ∧ asmText (.jal 7 4) = "JAL S7, .+4" := by decide

/-! ### One step of each instruction -/

/-- CT13: STATUS = DONE and IRQ. -/
theorem test_halt : pcAfter State.reset 0x04000000 = some (0, 0x0A) := by decide

/-- CT13. -/
theorem test_nop : pcAfter State.reset 0x08000000 = some (1, 1) := by decide

/-- CT14. -/
theorem test_brk : faultAfter (machine [] [] []) 0x0C000042 = some (12, 8, 0, 0x42) := by decide

/-- AS3. -/
theorem test_add_carry : wideAfter (machine [(1, 0x00FF00FF), (2, 0x00010001)] [] []) 0x11940000 3 = some (0x01000100, 1) := by decide

/-- AS6. -/
theorem test_add_in_place : wideAfter (machine [(1, 0x00018000)] [] []) 0x10920000 1 = some (0x00030000, 1) := by decide

/-- AS8. -/
theorem test_sub_wraps : wideAfter (machine [(1, 0x80000000), (2, 1)] [] []) 0x15940000 3 = some (0x7FFFFFFF, 1) := by decide

/-- AS10. -/
theorem test_sub_borrows : wideAfter (machine [(1, 0x01000000), (2, 1)] [] []) 0x15940000 3 = some (0x00FFFFFF, 1) := by decide

/-- AS13. -/
theorem test_cmp_exact : flagsAfter (machine [(1, 0x7FFFFFFF), (2, 0x80000000)] [] []) 0x38140000 = some (false, false, 1) := by decide

/-- AS14. -/
theorem test_cmp_less : flagsAfter (machine [(1, 0x80000000), (2, 0x7FFFFFFF)] [] []) 0x38140000 = some (false, true, 1) := by decide

/-- LS3. -/
theorem test_neg_min : wideAfter (machine [(1, 0x80000000)] [] []) 0x19100000 2 = some (0x80000000, 1) := by decide

/-- LS5. -/
theorem test_neg_carry_stops : wideAfter (machine [(1, 0x000000FF)] [] []) 0x19100000 2 = some (0xFFFFFF01, 1) := by decide

/-- LS7. -/
theorem test_abs : wideAfter (machine [(1, 0xFFFFFFFB)] [] []) 0x1D100000 2 = some (5, 1) := by decide

/-- LS8. -/
theorem test_abs_min : wideAfter (machine [(1, 0x80000000)] [] []) 0x1D100000 2 = some (0x80000000, 1) := by decide

/-- LS10. -/
theorem test_tst_zero : flagsAfter (machine [] [] []) 0x3C100000 = some (true, false, 1) := by decide

/-- LS11. -/
theorem test_tst_negative : flagsAfter (machine [(1, 0x80000000)] [] []) 0x3C100000 = some (false, true, 1) := by decide

/-- LS13. -/
theorem test_wfroms : wideAfter (machine [] [(1, 0x8000)] []) 0x4D100000 2 = some (0xFFFF8000, 1) := by decide

/-- LS16. -/
theorem test_mov : wideAfter (machine [(1, 0xDEADBEEF)] [] []) 0x41900000 3 = some (0xDEADBEEF, 1) := by decide

/-- LS19. -/
theorem test_ldi : wideAfter (machine [] [] []) 0x44808000 1 = some (0xFFFF8000, 1) := by decide

/-- LS21. -/
theorem test_setl : wideAfter (machine [(5, 0xFFFFFFFF)] [] []) 0x4A800000 5 = some (0xFFFFFF00, 1) := by decide

/-- LS34, at 4-bit limbs. -/
theorem test_setl_limb_range : faultAfter { State.reset with params := narrow } 0x4A800210 = some (12, 5, 0, 0x4A800210) := by decide

/-- LS24. -/
theorem test_shl : wideAfter (machine [(1, 3)] [] []) 0x5D10001F 2 = some (0x80000000, 1) := by decide

/-- LS26. -/
theorem test_shl_past_width : wideAfter (machine [(1, 0xFFFFFFFF)] [] []) 0x5D10FFFF 2 = some (0, 1) := by decide

/-- LS28. -/
theorem test_asr_rounds_down : wideAfter (machine [(1, 0xFFFFFFF9)] [] []) 0x61100001 2 = some (0xFFFFFFFC, 1) := by decide

/-- LS30. -/
theorem test_asr_past_width : wideAfter (machine [(1, 0x80000000)] [] []) 0x61100020 2 = some (0xFFFFFFFF, 1) := by decide

/-- MU9. -/
theorem test_mul_min : wideAfter (machine [(1, 0xFFFF0000), (2, 0x00008000)] [] []) 0x21940000 3 = some (0x80000000, 1) := by decide

/-- MU8. -/
theorem test_mul_overflow : faultAfter (machine [(1, 0x00010000), (2, 0x00008000)] [] []) 0x21940000 = some (12, 2, 0, 0x8B) := by decide

/-- MU17. -/
theorem test_fmul_truncates : wideAfter (machine [(1, 0xFFFFFFFF), (2, 0x00018000)] [] []) 0x2D940000 3 = some (0xFFFFFFFF, 1) := by decide

/-- MU21. -/
theorem test_fmul_overflow : faultAfter (machine [(1, 0x80000000), (2, 0xFFFF0000)] [] []) 0x2D940000 = some (12, 2, 0, 0x0010008B) := by decide

/-- DV14. -/
theorem test_div_add_back : wideAfter (machine [(1, 0x1EA23A79), (2, 0x0A361DD1)] [] []) 0x25940000 3 = some (2, 1) := by decide

/-- DV10. -/
theorem test_div_zero : faultAfter (machine [] [] []) 0x25940000 = some (12, 3, 0, 0x8B) := by decide

/-- DV17. -/
theorem test_fdiv : wideAfter (machine [(1, 0xFFFF0000), (2, 0x00030000)] [] []) 0x31940000 3 = some (0xFFFFAAAB, 1) := by decide

/-- DV18. -/
theorem test_fdiv_overflow : faultAfter (machine [(1, 0x40000000), (2, 0x00008000)] [] []) 0x31940000 = some (12, 2, 0, 0x0010008B) := by decide

/-- SQ6. -/
theorem test_isqrt_alternating : wideAfter (machine [(1, 15)] [] []) 0x29100000 2 = some (4, 1) := by decide

/-- SQ14. -/
theorem test_isqrt_domain : faultAfter (machine [(1, 0x80000000)] [] []) 0x29100000 = some (12, 4, 0, 0x0A) := by decide

/-- SQ16. -/
theorem test_fsqrt : wideAfter (machine [(1, 0x00020000)] [] []) 0x35100000 2 = some (0x00016A09, 1) := by decide

/-- SQ21. -/
theorem test_fsqrt_domain : faultAfter (machine [(1, 0xFFFF0000)] [] []) 0x35100000 = some (12, 4, 0, 0x0010000A) := by decide

/-- SH3. -/
theorem test_lshl : wideAfter (machine [(1, 0x123456AB)] [] []) 0x51100003 2 = some (0xAB000000, 1) := by decide

/-- SH8. -/
theorem test_lshr : wideAfter (machine [(1, 0x80000000)] [] []) 0x55100001 2 = some (0x00800000, 1) := by decide

/-- SH13. -/
theorem test_lsra : wideAfter (machine [(1, 0xFFFE8000)] [] []) 0x59100002 2 = some (0xFFFFFFFE, 1) := by decide

/-- SH16. -/
theorem test_lsra_past_width : wideAfter (machine [(1, 0x80000000)] [] []) 0x59100005 2 = some (0xFFFFFFFF, 1) := by decide

/-- SC1. -/
theorem test_sli : scalarAfter (machine [] [] []) 0xA080FFFF 1 = some (0xFFFF, 1) := by decide

/-- SC2. -/
theorem test_sli_zero_register : scalarAfter (machine [] [] []) 0xA0001234 0 = some (0, 1) := by decide

/-- SC4. -/
theorem test_saddi : scalarAfter (machine [] [] []) 0xA510FFFF 2 = some (0xFFFF, 1) := by decide

/-- SC6. -/
theorem test_sadd : scalarAfter (machine [] [(1, 0xFFFF), (2, 1)] []) 0xA9940000 3 = some (0, 1) := by decide

/-- SC9. -/
theorem test_ssub : scalarAfter (machine [] [(1, 0x8000), (2, 1)] []) 0xAD940000 3 = some (0x7FFF, 1) := by decide

/-- SC11. -/
theorem test_sshl : scalarAfter (machine [] [(1, 3)] []) 0xB110000F 2 = some (0x8000, 1) := by decide

/-- SC13. -/
theorem test_sasr : scalarAfter (machine [] [(1, 0xFFF9)] []) 0xB5100001 2 = some (0xFFFC, 1) := by decide

/-- SC19. -/
theorem test_stst : flagsAfter (machine [] [(1, 0x8000)] []) 0xB8100000 = some (false, true, 1) := by decide

/-- SC21. -/
theorem test_scmp : flagsAfter (machine [] [(1, 0x7FFF), (2, 0x8000)] []) 0xBC140000 = some (false, false, 1) := by decide

/-- The DMEM bytes of section 3.8. -/
def vectorBytes : List Host.Cell :=
  [(0x100, 0x78), (0x101, 0x56), (0x102, 0x34), (0x103, 0x12), (0x104, 0xEF), (0x105, 0xCD), (0x106, 0xAB), (0x107, 0x89)]

/-- ME2. -/
theorem test_ldw_unaligned : wideAfter (machine [] [(1, 0x0100)] vectorBytes) 0x81100001 2 = some (0xEF123456, 1) := by decide

/-- ME8. -/
theorem test_ldw_badaddr : faultAfter (machine [] [] []) 0x81000FFD = some (12, 6, 0, 0x0FFD) := by decide

/-- ME4. -/
theorem test_lds : scalarAfter (machine [] [(1, 0x0100)] vectorBytes) 0x89100006 2 = some (0x89AB, 1) := by decide

/-- ME9. -/
theorem test_lds_badaddr : faultAfter (machine [] [] []) 0x89000FFF = some (12, 6, 0, 0x0FFF) := by decide

/-- ME5. -/
theorem test_stw : (after (machine [(1, 0x0002C000)] [] []) 0x84800010).map State.dmem =
    some [(0x10, 0x00), (0x11, 0xC0), (0x12, 0x02), (0x13, 0x00)] := by decide

/-- ME10: the address wraps to 0xFFFF before the bounds check. -/
theorem test_stw_badaddr : faultAfter (machine [(1, 1)] [] []) 0x8490FFFF = some (12, 6, 0, 0xFFFF) := by decide

/-- ME6. -/
theorem test_sts : (after (machine [] [(3, 0xBEEF)] []) 0x8D800FFE).map State.dmem = some [(0xFFE, 0xEF), (0xFFF, 0xBE)] := by decide

/-- CT11's branch: pc 0 and offset -1 give 0xFFFF. -/
theorem test_bra : pcAfter State.reset 0xC000FFFF = some (0xFFFF, 1) := by decide

/-- CT2, CT3. -/
theorem test_beq : pcAfter { State.reset with z := true, n := false } 0xC4000002 = some (2, 1) ∧
    pcAfter { State.reset with z := false, n := false } 0xC4000002 = some (1, 1) := by decide

/-- CT8, R292. -/
theorem test_bne : pcAfter { State.reset with z := false, n := true } 0xC8000002 = some (2, 1) ∧
    pcAfter { State.reset with z := true, n := false } 0xC8000002 = some (1, 1) := by decide

/-- CT6, R292. -/
theorem test_blt : pcAfter { State.reset with z := false, n := true } 0xCC000002 = some (2, 1) ∧
    pcAfter { State.reset with z := true, n := false } 0xCC000002 = some (1, 1) := by decide

/-- R292, CT7. -/
theorem test_bge : pcAfter { State.reset with z := true, n := false } 0xD0000002 = some (2, 1) ∧
    pcAfter { State.reset with z := false, n := true } 0xD0000002 = some (1, 1) := by decide

/-- CT4, R292. -/
theorem test_bgt : pcAfter { State.reset with z := false, n := false } 0xD4000002 = some (2, 1) ∧
    pcAfter { State.reset with z := true, n := false } 0xD4000002 = some (1, 1) := by decide

/-- R292, CT5. -/
theorem test_ble : pcAfter { State.reset with z := false, n := true } 0xD8000002 = some (2, 1) ∧
    pcAfter { State.reset with z := false, n := false } 0xD8000002 = some (1, 1) := by decide

/-- R293's example: at pc 4, `JAL S7, .+10`. -/
theorem test_jal : scalarAfter { State.reset with pc := 4 } 0xDF80000A 7 = some (5, 14) := by decide

/-- CT12's jump. -/
theorem test_jr : pcAfter (machine [] [(1, 0x0400)] []) 0xE0100000 = some (0x0400, 1) := by decide

/-- CT15's last step: BADPC at 0x0400. -/
theorem test_badpc : step { State.reset with pc := 0x0400, busy := true } =
    .next { State.reset with pc := 0x0400, faultCause := 7, faultPC := 0x0400, faultInfo := 0x0400, faulted := true, irq := true } := rfl

/-- Section 2: the all-zero word is illegal. -/
theorem test_illegal : faultAfter State.reset 0 = some (12, 1, 0, 0) := by decide

/-! ### The host -/

/-- ID, CFG and CFG2 at the reference parameters (R50 to R52). -/
theorem test_constant_registers : [State.reset.hostRead 0x00, State.reset.hostRead 0x04, State.reset.hostRead 0x08] =
    [0x01020408#32, 0x0FFF03FF#32, 0x00000010#32] := by decide

/-- From reset, host writes load HALT into IMEM word 0 and start it (R83, R362): the step after the START runs it. -/
theorem test_start_from_reset :
    (match step { State.reset with hostQueue := [.write 0x40000 0x04000000, .write 0x10 1] } with
      | .next s => match step s with
        | .next t => match step t with
          | .next u => some (t.busy, u.statusWord)
          | _ => none
        | _ => none
      | _ => none) = some (true, 0x0A#32) := by decide

/-! ### Witnesses: states and operands that meet the hypotheses of the obligations -/

/-- A run in progress at the word `w`. -/
def running (w : Nat) : State := State.reset.withFetchWord 32 w

theorem witness_DecodeEncodeRoundTrip : (Instr.setl 7 3 0xFF).wellFormed 4 = true := by decide

theorem witness_EncodeDecodeRoundTrip : decode 4 0x4B8003FF#32 = .ok (.setl 7 3 0xFF) := by decide

theorem witness_DecodeFollowsOpcodeTable :
    (∃ r ∈ opcodeTable, r.spells 0x488003FF#32 = true ∧ r.mnemonic = "SETL" ∧ (fieldIdx 0x488003FF#32).toNat < 4) ∧
    (∃ r ∈ opcodeTable, r.spells 0x48800400#32 = true ∧ r.mnemonic = "SETL" ∧ 4 ≤ (fieldIdx 0x48800400#32).toNat) ∧
    (∃ r ∈ opcodeTable, r.spells 0x04000000#32 = true ∧ r.mnemonic ≠ "SETL") ∧
    (∀ r ∈ opcodeTable, r.spells 0x04000001#32 = false) := by decide

theorem witness_OpcodeRowsDoNotOverlap : ∃ r₁ ∈ opcodeTable, ∃ r₂ ∈ opcodeTable,
    r₁.spells 0x04000000#32 = true ∧ r₂.spells 0x04000000#32 = true := by decide

theorem witness_PseudoInstructionsExpand : narrow.legal = true := by decide

theorem witness_StepRunsDecodedInstruction : (running 0x08000000).params.legal = true ∧ (running 0x08000000).busy = true ∧
    (running 0x08000000).pc.toNat < (running 0x08000000).params.imemWords ∧
    decode (running 0x08000000).params.N ((running 0x08000000).imemWord (running 0x08000000).pc.toNat) = .ok .nop ∧
    exec .nop (running 0x08000000) = .next { running 0x08000000 with pc := 1 } ∧ (running 0x08000000).hostQueue = [] :=
  ⟨by decide, by decide, by decide, by decide, rfl, by decide⟩

theorem witness_StepFetchFaults_badpc : { State.reset with pc := 0x0400, busy := true }.params.legal = true ∧
    Params.reference.imemWords ≤ (0x0400#16).toNat := by decide

theorem witness_StepFetchFaults_illegal : (running 0x04000001).params.legal = true ∧ (running 0x04000001).busy = true ∧
    (running 0x04000001).pc.toNat < (running 0x04000001).params.imemWords ∧
    decode (running 0x04000001).params.N ((running 0x04000001).imemWord (running 0x04000001).pc.toNat) = .error .nonzeroField := by decide

theorem witness_IdleEngineWaits_idle : State.reset.params.legal = true ∧ State.reset.busy = false ∧ State.reset.hostQueue = [] := by decide

/-- A read of ID that waits during a run, and what the step leaves; the other events' premises. -/
theorem witness_IdleEngineWaits_events :
    (let s := { running 0x08000000 with hostQueue := [.read 0x00] }; s.hostQueue = [.read 0x00] ∧ s.hostTurn.busData = 0x01020408#32) ∧
    { running 0x08000000 with hostQueue := [.quiet] }.hostQueue = [.quiet] ∧
    (let s := { State.reset with hostQueue := [.write 0x100 5] }; s.hostQueue = [.write 0x100 5] ∧ s.hostTurn.readW 0 = 5) ∧
    (let s := { running 0x08000000 with hostQueue := [.hardReset] }; s.hostQueue = [.hardReset] ∧ s.hostTurn.busy = false) := by decide

theorem witness_StepAlwaysAnswersNext : (running 0x25940000).params.legal = true := by decide

/-- A division by zero. -/
theorem witness_FaultEntryIsPrecise : (running 0x25940000).faulted = false ∧
    ∃ t, engineStep (running 0x25940000) = .next t ∧ t.faulted = true := ⟨by decide, _, rfl, by decide⟩

theorem witness_ArithmeticFaultInfoLayout : { Params.reference with N := 16, SL := 15 }.legal = true := by decide

theorem witness_WideWritesFollowTable : (∃ t, exec (.ldi 1 5) State.reset = .next t) ∧ (Instr.ldi 1 5).wideDest ≠ some 2 :=
  ⟨⟨_, rfl⟩, by decide⟩

theorem witness_ScalarWritesFollowTable : (∃ t, exec (.sli 1 5) State.reset = .next t) ∧ (Instr.sli 1 5).scalarDest ≠ some 2 :=
  ⟨⟨_, rfl⟩, by decide⟩

theorem witness_OnlyStoresChangeDmem : (∃ t, exec (.stw 1 0 0x0FFC) State.reset = .next t) ∧ (∃ t, exec (.sts 1 0 0x0FFE) State.reset = .next t) ∧
    (∃ t, exec (.lds 1 0 0) (machine [] [] vectorBytes) = .next t) ∧ (Instr.lds 1 0 0).storesNothing = true :=
  ⟨⟨_, rfl⟩, ⟨_, rfl⟩, ⟨_, rfl⟩, rfl⟩

theorem witness_InstructionsKeepHostState : ∃ t, exec (.sts 1 0 0) State.reset = .next t := ⟨_, rfl⟩

theorem witness_RunEndsOnlyAtHaltOrFault : State.reset.faulted = false ∧ Instr.nop ≠ .halt ∧
    ∃ t, exec .nop State.reset = .next t ∧ t.faulted = false := ⟨by decide, by decide, _, rfl, by decide⟩

theorem witness_FlagsFollowTable : State.reset.params.legal = true ∧ (Instr.add 1 2 3).writesFlags = false ∧
    ∃ t, exec (.add 1 2 3) State.reset = .next t := ⟨by decide, rfl, _, rfl⟩

theorem witness_ConstructionResults : (running 0x08000000).params.legal = true ∧ { State.reset with params := narrow }.params.legal = true := by decide

theorem witness_NegAbsResults : (running 0x08000000).params.legal = true ∧ { State.reset with params := narrow }.params.legal = true := by decide

theorem witness_WideBitShiftResults : (running 0x08000000).params.legal = true ∧ { State.reset with params := narrow }.params.legal = true := by decide

theorem witness_AddSubResults : (running 0x08000000).params.legal = true ∧ { State.reset with params := narrow }.params.legal = true := by decide

theorem witness_LimbShiftResults : (running 0x08000000).params.legal = true ∧ { State.reset with params := narrow }.params.legal = true := by decide

theorem witness_SetlResult_set : State.reset.params.legal = true ∧ (3#8).toNat < State.reset.params.N ∧
    (0xFF#8).toNat < State.reset.params.radix := by decide

theorem witness_SetlResult_range : { State.reset with params := narrow }.params.legal = true ∧ (7#8).toNat < narrow.N ∧
    narrow.radix ≤ (0x10#8).toNat := by decide

theorem witness_SetlResult_index : State.reset.params.legal = true ∧ State.reset.params.N ≤ (4#8).toNat := by decide

theorem witness_NegationAndAdditionLaws : Params.reference.legal = true ∧ (0xFFFFFFFF#128).toNat < 2 ^ Params.reference.W ∧
    (0x80000000#128).toNat < 2 ^ Params.reference.W := by decide

theorem witness_LimbShiftLaws : Params.reference.legal = true ∧ (0x80000000#128).toNat < 2 ^ Params.reference.W ∧
    isneg Params.reference 0x7FFFFFFF#128 = false ∧ 3 < Params.reference.N ∧ 4 = Params.reference.N := by decide

theorem witness_SchoolbookMultiplierIsExact : Params.reference.legal = true ∧ 0xFFFFFFFF < 2 ^ Params.reference.W := by decide

/-- The state of the multiply and divide witnesses: W1 = x, W2 = y. -/
def pair (x y : Nat) : State := machine [(1, x), (2, y)] [] []

/-- MU9 and MU8: the least product fits, and its negation does not. -/
theorem witness_MulResult : (pair 0 0).params.legal = true ∧
    (let s := pair 0xFFFF0000 0x00008000; fitsW s.params (sval s.params (s.readW 1) * sval s.params (s.readW 2))) ∧
    (let s := pair 0x00010000 0x00008000; ¬fitsW s.params (sval s.params (s.readW 1) * sval s.params (s.readW 2))) := by unfold fitsW; decide

/-- MU19 and MU18. -/
theorem witness_FmulResult : (pair 0 0).params.legal = true ∧
    (let s := pair 0xFF000000 0x00800000; fitsW s.params ((sval s.params (s.readW 1) * sval s.params (s.readW 2)).tdiv (2 ^ s.params.FB))) ∧
    (let s := pair 0x01000000 0x00800000; ¬fitsW s.params ((sval s.params (s.readW 1) * sval s.params (s.readW 2)).tdiv (2 ^ s.params.FB))) := by unfold fitsW; decide

theorem witness_AlgorithmDIsFloorDivision : Params.reference.legal = true ∧ 0xFFFFFFFF < Params.reference.radix ^ 4 ∧
    0xFFFFFFFF < Params.reference.radix ^ Params.reference.N := by decide

/-- DV9, DV6 and DV5. -/
theorem witness_DivResult : (pair 0 0).params.legal = true ∧ sval Params.reference ((pair 5 0).readW 2) = 0 ∧
    (let s := pair 0x80000000 1; sval s.params (s.readW 2) ≠ 0 ∧ ¬(sval s.params (s.readW 1) = -(2 : Int) ^ (s.params.W - 1) ∧ sval s.params (s.readW 2) = -1)) ∧
    (let s := pair 0x80000000 0xFFFFFFFF; sval s.params (s.readW 1) = -(2 : Int) ^ (s.params.W - 1) ∧ sval s.params (s.readW 2) = -1) := by decide

/-- DV23, DV19 and DV18. -/
theorem witness_FdivResult : (pair 0 0).params.legal = true ∧ sval Params.reference ((pair 0 0).readW 2) = 0 ∧
    (let s := pair 0xC0000000 0x00008000; sval s.params (s.readW 2) ≠ 0 ∧
        fitsW s.params ((sval s.params (s.readW 1) * 2 ^ s.params.FB).tdiv (sval s.params (s.readW 2)))) ∧
    (let s := pair 0x40000000 0x00008000; sval s.params (s.readW 2) ≠ 0 ∧
        ¬fitsW s.params ((sval s.params (s.readW 1) * 2 ^ s.params.FB).tdiv (sval s.params (s.readW 2)))) := by unfold fitsW; decide

theorem witness_SqrtResults : (pair 0 0).params.legal = true ∧ sval Params.reference ((pair 0xFFFFFFFF 0).readW 1) < 0 ∧
    sval Params.reference ((pair 0 0).readW 1) = 0 ∧ 0 < sval Params.reference ((pair 1 0).readW 1) := by decide

theorem witness_SqrtResultInRange : Params.reference.legal = true ∧ 1 ≤ 256 ^ 6 - 1 ∧
    256 ^ 6 - 1 < Params.reference.radix ^ (Params.reference.N + Params.reference.SL) := by decide

/-- W1 = MAX, at the least budget. -/
theorem witness_SqrtConvergesAtReference :
    let s := { pair 0x7FFFFFFF 0 with params := { Params.reference with sqrtIters := 10 } }
    10 ≤ 10 ∧ 10 ≤ 255 ∧ s.params = { Params.reference with sqrtIters := 10 } ∧ 0 < sval s.params (s.readW 1) := by decide

/-- The last wide and scalar accesses inside DMEM, and the first outside it. -/
theorem witness_LoadResults : State.reset.params.legal = true ∧
    (State.reset.effAddr 0 0x0FFC).toNat + State.reset.params.wideBytes ≤ State.reset.params.dmemBytes ∧
    State.reset.params.dmemBytes < (State.reset.effAddr 0 0x0FFD).toNat + State.reset.params.wideBytes ∧
    (State.reset.effAddr 0 0x0FFE).toNat + 2 ≤ State.reset.params.dmemBytes ∧
    State.reset.params.dmemBytes < (State.reset.effAddr 0 0x0FFF).toNat + 2 := by decide

theorem witness_StoreResults : State.reset.params.legal = true ∧
    (State.reset.effAddr 0 0).toNat + State.reset.params.wideBytes ≤ State.reset.params.dmemBytes ∧
    State.reset.params.dmemBytes < (State.reset.effAddr 0 0xFFFF).toNat + State.reset.params.wideBytes ∧
    (State.reset.effAddr 0 0).toNat + 2 ≤ State.reset.params.dmemBytes ∧
    State.reset.params.dmemBytes < (State.reset.effAddr 0 0xFFFF).toNat + 2 := by decide

theorem witness_StoreThenLoad : State.reset.params.legal = true ∧
    (State.reset.effAddr 0 0x0FFC).toNat + State.reset.params.wideBytes ≤ State.reset.params.dmemBytes ∧
    (State.reset.effAddr 0 0x0FFE).toNat + 2 ≤ State.reset.params.dmemBytes ∧
    (State.reset.effAddr 0 0x0FFC).toNat + 4 ≤ State.reset.params.dmemBytes := by decide

/-- A run in progress meets the invariant and takes a step. -/
theorem witness_StepKeepsInvariant : (running 0x08000000).Inv ∧ ∃ t, step (running 0x08000000) = .next t :=
  ⟨{ params_legal := by decide
     status := ⟨fun _ => by decide, fun h => absurd h (by decide)⟩
     irq := fun h => absurd h (by decide)
     fault := by unfold State.faultOk; rw [if_neg (by decide)]; decide
     flags := by decide
     wide := by unfold State.wideOk; decide
     scalar_zero := by decide
     memory := by unfold State.memoryOk; decide }, _, rfl⟩

theorem witness_StepKeepsParameters : ∃ t, step (running 0x08000000) = .next t := ⟨_, rfl⟩

theorem witness_HardwareResetState : ∃ s t : State, t = s.hardReset ∧ s = running 0x08000000 := ⟨_, _, rfl, rfl⟩

theorem witness_SoftResetByHost : (0x00000003#32).getLsbD 1 = true := by decide

theorem witness_StartByHost : (0x00000005#32).getLsbD 1 = false ∧ (0x00000005#32).getLsbD 0 = true ∧ State.reset.busy = false ∧
    (running 0x08000000).busy = true := by decide

theorem witness_WindowsLockedWhileBusy : (running 0x08000000).busy = true ∧ 0x40 ≤ (0x00040#20).toNat ∧ 0x40 ≤ (0xFFFFF#20).toNat := by decide

theorem witness_ControlRegistersWhileBusy : (running 0x08000000).busy = true ∧ (0x00000008#32).getLsbD 3 = true ∧
    (0x00000005#32).getLsbD 1 = false ∧ (0x00000002#32).getLsbD 1 = true := by decide

theorem witness_ControlRegisterReads : State.reset.params.legal = true ∧ State.reset.busy = false := by decide

theorem witness_ControlRegisterWrites : State.reset.busy = false ∧ (0xFFFFFFFC#32).getLsbD 0 = false ∧ (0xFFFFFFFC#32).getLsbD 1 = false := by
  decide

theorem witness_RegisterWindows : { State.reset with params := narrow }.params.legal = true ∧ State.reset.busy = false := by decide

theorem witness_MemoryWindows : State.reset.params.legal = true ∧ State.reset.busy = false ∧ 1023 < State.reset.params.imemWords ∧
    State.reset.params.imemWords ≤ 1024 ∧ 0xFFFF < 0x10000 ∧ 4 * 1023 < State.reset.params.dmemBytes ∧
    State.reset.params.dmemBytes ≤ 4 * 1024 ∧ 0x3FFF < 0x4000 := by decide

/-- The first and last offsets of each reserved range. -/
theorem witness_ReservedOffsets : (0x0C#20).toNat / 4 = 3 ∧ (0x0F#20).toNat / 4 = 3 ∧ 0x30 ≤ (0x30#20).toNat ∧ (0x3F#20).toNat < 0x40 ∧
    0x60 ≤ (0x60#20).toNat ∧ (0xFF#20).toNat < 0x100 ∧ 0x180 ≤ (0x180#20).toNat ∧ (0x3FFFF#20).toNat < 0x40000 ∧
    0x90000 ≤ (0x90000#20).toNat := by decide

theorem witness_InterruptOutput : (0x00000008#32).getLsbD 3 = true ∧ (0x00000007#32).getLsbD 3 = false ∧
    (0x00000004#32).getLsbD 1 = false ∧ (0x00000004#32).getLsbD 0 = false := by decide

/-- A run about to store, and an SRESET that arrives in that step. -/
theorem witness_SresetAbortsRun :
    let s := { running 0x8C000000 with hostQueue := [.write 0x10 2] }
    s.params.legal = true ∧ s.busy = true ∧ s.hostQueue = [.write 0x10 2] ∧ (0x00000002#32).getLsbD 1 = true ∧
    ∃ t u, engineStep s = .next t ∧ step s = .next u := ⟨by decide, by decide, by decide, by decide, _, _, rfl, rfl⟩

end Sys2Proof.Tests
end

section
/-! SUPPORT. Said once: the ends an instruction can come to (48_control.md R299), the ends a step can come to, and what the outside's turn
leaves. The statement that no step changes the parameters (O47) follows. -/

namespace Sys2Proof.Machine

variable {i : Instr} {s t : State}

/-! ### How an instruction ends -/

/-- The states in which instruction `i`, run at `s`, can end: which fields it may write, by the rows of R31, R37 and R40, and no others. -/
inductive InstrEnd (i : Instr) (s : State) : State → Prop
  /-- `W[d]` is written, and the next instruction follows. -/
  | wide (d : WReg) (v : Wide) (dest : i.wideDest = some d) : InstrEnd i s (s.writeW d v).advance
  /-- `S[d]` is written, and the next instruction or JAL's target follows. -/
  | scalar (d : SReg) (v target : Half) (dest : i.scalarDest = some d) : InstrEnd i s ((s.writeS d v).jump target)
  /-- The flags are written, and the next instruction follows. -/
  | flags (z n : Bool) (writes : i.writesFlags = true) : InstrEnd i s (s.setFlags z n).advance
  /-- Bytes of DMEM are written, and the next instruction follows. -/
  | store (a : Nat) (bytes : List Byte) (stores : i.storesNothing = false) : InstrEnd i s (s.dmemPutBytes a bytes).advance
  /-- Only pc is written: NOP, the branches and JR. -/
  | jump (target : Half) : InstrEnd i s (s.jump target)
  /-- HALT ends the run. -/
  | halt (isHalt : i = .halt) : InstrEnd i s s.halt
  /-- A fault ends the run (60_exceptions.md R323). -/
  | fault (cause : Cause) (info : Word) : InstrEnd i s (s.raiseFault cause info)

/-- The outcome is a next state, and one in which `i` can end. -/
def EndsNext (i : Instr) (s : State) (o : Host.Outcome State Fault Refusal) : Prop :=
  ∃ t, o = .next t ∧ InstrEnd i s t

theorem InstrEnd.endsNext (h : InstrEnd i s t) : EndsNext i s (.next t) := ⟨t, rfl, h⟩

theorem writeWNext_endsNext (d : WReg) (v : Wide) (dest : i.wideDest = some d) : EndsNext i s (s.writeWNext d v) :=
  (InstrEnd.wide d v dest).endsNext

theorem writeSNext_endsNext (d : SReg) (v : Half) (dest : i.scalarDest = some d) : EndsNext i s (s.writeSNext d v) :=
  (InstrEnd.scalar d v _ dest).endsNext

theorem signedResult_endsNext (d a b : WReg) (shift q : Nat) (sg : Bool) (dest : i.wideDest = some d) :
    EndsNext i s (s.signedResult d a b shift q sg) := by
  rcases s.signedResult_cases d a b shift q sg with ⟨-, e⟩ | ⟨-, e⟩ <;> rw [e]
  · exact writeWNext_endsNext d _ dest
  · exact (InstrEnd.fault _ _).endsNext

theorem storeNext_endsNext (ea : Half) (n v : Nat) (stores : i.storesNothing = false) :
    EndsNext i s (s.storeNext ea n v) := by
  rcases s.storeNext_cases ea n v with ⟨-, e⟩ | ⟨-, e⟩ <;> rw [e]
  · exact (InstrEnd.store _ _ stores).endsNext
  · exact (InstrEnd.fault _ _).endsNext

theorem branchIf_endsNext (c : Cond) (simm : Half) : EndsNext i s (.next (s.branchIf c simm)) := by
  rcases s.branchIf_cases c simm with ⟨-, e⟩ | ⟨-, e⟩ <;> rw [e]
  · exact (InstrEnd.jump _).endsNext
  · exact (InstrEnd.jump _).endsNext

theorem EndsNext.ite {c : Prop} [Decidable c] {o p : Host.Outcome State Fault Refusal} (ho : EndsNext i s o)
    (hp : EndsNext i s p) : EndsNext i s (if c then o else p) := by
  split
  · exact ho
  · exact hp

/-- Every instruction, at every state, ends in one of the ways of `InstrEnd`. -/
theorem exec_endsNext (i : Instr) (s : State) : EndsNext i s (exec i s) := by
  cases i with
  | halt => exact (InstrEnd.halt rfl).endsNext
  | nop | bra | jr => exact (InstrEnd.jump _).endsNext
  | beq | bne | blt | bge | bgt | ble => exact branchIf_endsNext _ _
  | brk => exact (InstrEnd.fault _ _).endsNext
  | add | sub | neg | abs | mov | ldi | wfroms | lshl | lshr | lsra | shl | asr => exact writeWNext_endsNext _ _ rfl
  | setl => exact .ite (InstrEnd.fault _ _).endsNext (.ite (InstrEnd.fault _ _).endsNext (writeWNext_endsNext _ _ rfl))
  | mul | fmul => exact signedResult_endsNext _ _ _ _ _ _ rfl
  | div | fdiv => exact .ite (InstrEnd.fault _ _).endsNext (signedResult_endsNext _ _ _ _ _ _ rfl)
  | isqrt | fsqrt =>
    exact .ite (InstrEnd.fault _ _).endsNext (.ite (writeWNext_endsNext _ _ rfl) (writeWNext_endsNext _ _ rfl))
  | sli | saddi | sadd | ssub | sshl | sasr => exact writeSNext_endsNext _ _ rfl
  | jal => exact (InstrEnd.scalar _ _ _ rfl).endsNext
  | cmp | tst | stst | scmp => exact (InstrEnd.flags _ _ rfl).endsNext
  | stw | sts => exact storeNext_endsNext _ _ _ rfl
  | ldw d a simm =>
    show EndsNext _ s (execLdw d a simm s)
    rcases execLdw_cases s d a simm with ⟨-, e⟩ | ⟨-, e⟩ <;> rw [e]
    · exact writeWNext_endsNext _ _ rfl
    · exact (InstrEnd.fault _ _).endsNext
  | lds d a simm =>
    show EndsNext _ s (execLds d a simm s)
    rcases execLds_cases s d a simm with ⟨-, e⟩ | ⟨-, e⟩ <;> rw [e]
    · exact writeSNext_endsNext _ _ rfl
    · exact (InstrEnd.fault _ _).endsNext

/-- The next state of an instruction is one of its ends. -/
theorem instrEnd_of_exec (h : exec i s = .next t) : InstrEnd i s t := by
  obtain ⟨u, hu, hend⟩ := exec_endsNext i s
  obtain rfl : u = t := by simpa using hu.symm.trans h
  exact hend

/-! ### How a step ends -/

/-- A sequencer step runs the instruction fetched, or raises the fault of the fetch or of the decoding (48_control.md R299). -/
theorem engineStep_cases (h : engineStep s = .next t) :
    (∃ i, s.fetchDecode = .ok i ∧ exec i s = .next t) ∨
    (∃ c info, s.fetchDecode = .error (c, info) ∧ t = s.raiseFault c info) := by
  unfold engineStep at h
  cases hf : s.fetchDecode with
  | ok i => exact .inl ⟨i, rfl, by simpa [hf] using h⟩
  | error f => exact .inr ⟨f.1, f.2, rfl, by simpa [hf] using h.symm⟩

theorem afterEngine_eq_next {o : Host.Outcome State Fault Refusal} (h : afterEngine o = .next t) :
    ∃ u, o = .next u ∧ t = u.hostTurn := by
  cases o with
  | next u => exact ⟨u, rfl, by simpa [afterEngine] using h.symm⟩
  | fault r => simp [afterEngine] at h
  | refused r => simp [afterEngine] at h

/-- A step that answers has legal parameters, and the outside's turn last: after the sequencer's step if a run is in progress, alone if
not (60_exceptions.md R336, R346). -/
theorem step_cases (h : step s = .next t) :
    s.params.legal = true ∧
    ((s.busy = true ∧ ∃ u, engineStep s = .next u ∧ t = u.hostTurn) ∨ (s.busy = false ∧ t = s.hostTurn)) := by
  unfold step at h
  split at h
  · cases h
  next hwidth =>
    split at h
    · cases h
    next hsizes =>
      refine ⟨by simpa [Params.legal] using And.intro hwidth hsizes, ?_⟩
      split at h
      next hbusy => exact .inl ⟨hbusy, afterEngine_eq_next h⟩
      next hidle => exact .inr ⟨by simpa using hidle, by simpa using h.symm⟩

/-! ### The parameters -/

theorem InstrEnd.params_eq (h : InstrEnd i s t) : t.params = s.params := by
  cases h with
  | wide | flags | jump | halt | fault => rfl
  | scalar d v => exact s.writeS_params d v
  | store a bytes => exact s.dmemPutBytes_params a bytes

theorem engineStep_params (h : engineStep s = .next t) : t.params = s.params := by
  rcases engineStep_cases h with ⟨i, -, hexec⟩ | ⟨c, info, -, rfl⟩
  · exact (instrEnd_of_exec hexec).params_eq
  · exact s.raiseFault_params c info

@[simp] theorem State.writeCtrl_params (s : State) (data : Word) : (s.writeCtrl data).params = s.params := by
  rcases s.writeCtrl_cases data with ⟨-, e⟩ | ⟨-, -, -, e⟩ | ⟨-, -, e⟩ <;> simp [e]

@[simp] theorem State.writeStatus_params (s : State) (data : Word) : (s.writeStatus data).params = s.params := by
  unfold State.writeStatus
  split <;> rfl

theorem State.writeIdle_params (h : t.params = s.params) : (s.writeIdle t).params = s.params := by
  unfold State.writeIdle
  split
  · rfl
  · exact h

/-- ID, CFG and CFG2 ignore a write (10_state.md R48), and no other control register holds a parameter. -/
@[simp] theorem State.writeControl_params (s : State) (data : Word) (r : ControlReg) :
    (s.writeControl data r).params = s.params := by
  cases r with
  | ctrl => exact s.writeCtrl_params data
  | status => exact s.writeStatus_params data
  | startPC => exact State.writeIdle_params (t := { s with startPC := data.setWidth 16 }) rfl
  | id | cfg | cfg2 | pc | flags | faultCause | faultPC | faultInfo => rfl

@[simp] theorem State.hostWrite_params (s : State) (offset : BitVec 20) (data : Word) :
    (s.hostWrite offset data).params = s.params := by
  unfold State.hostWrite
  cases windowTarget s.params offset with
  | control r => exact s.writeControl_params data r
  | scalar i => exact State.writeIdle_params (s.writeS_params i _)
  | wide i j => exact State.writeIdle_params (s.writeW_params i _)
  | imem k => exact State.writeIdle_params (s.imemPut_params k data)
  | dmem a => exact State.writeIdle_params (s.dmemPutBytes_params a _)
  | reserved => rfl

@[simp] theorem State.hostEvent_params (s : State) (e : HostEvent) : (s.hostEvent e).params = s.params := by
  cases e with
  | quiet | read => rfl
  | write offset data => exact s.hostWrite_params offset data
  | hardReset => exact s.hardReset_params

@[simp] theorem State.hostTurn_params (s : State) : s.hostTurn.params = s.params := by
  rcases s.hostTurn_cases with ⟨-, e⟩ | ⟨ev, rest, -, e⟩ <;> simp [e]

/-- Settles O47: neither the sequencer's step nor the outside's turn after it writes a parameter. -/
theorem stepKeepsParameters : Obligations.StepKeepsParameters := by
  intro s t h
  obtain ⟨-, ⟨-, u, hu, rfl⟩ | ⟨-, rfl⟩⟩ := step_cases h
  · rw [State.hostTurn_params, engineStep_params hu]
  · exact s.hostTurn_params

end Sys2Proof.Machine
end

section
/-! SUPPORT. What the zero and sign tests say of a wide value (40_limb_sign.md R121), and the four instructions that write the flags
(10_state.md R40). The statement of the flags (O21) follows. -/

namespace Sys2Proof.Machine

variable {i : Instr} {s t : State}

/-! ### The limbs and the sign of a wide value -/

/-- A number whose `n` low base-2^b digits are all 0 is 0 modulo 2^(b*n). -/
theorem mod_two_pow_mul_eq_zero (b v n : Nat) (h : ∀ j < n, v / 2 ^ (b * j) % 2 ^ b = 0) : v % 2 ^ (b * n) = 0 := by
  induction n with
  | zero => simp [Nat.mod_one]
  | succ n ih =>
    rw [Nat.mul_succ, Nat.pow_add, Nat.mod_mul, ih fun j hj => h j (by omega), h n (by omega), Nat.mul_zero]

theorem uval_lt (p : Params) (x : Wide) : uval p x < 2 ^ p.W := Nat.mod_lt _ (by positivity)

/-- The limb-by-limb zero test (40_limb_sign.md R121) is a test of the whole value. -/
theorem iszero_iff (p : Params) (x : Wide) : iszero p x = true ↔ uval p x = 0 := by
  have hlimbs : iszero p x = true ↔ ∀ j < p.N, limb p x j = 0 := by simp [iszero, limbs]
  rw [hlimbs]
  constructor
  · intro h
    have hmod := mod_two_pow_mul_eq_zero p.LB (uval p x) p.N h
    rwa [show p.LB * p.N = p.W from Nat.mul_comm _ _, Nat.mod_eq_of_lt (uval_lt p x)] at hmod
  · intro h j _
    simp [limb, h]

theorem isneg_iff_sval_neg (p : Params) (x : Wide) : isneg p x = true ↔ sval p x < 0 := by
  have hlt : (uval p x : Int) < 2 ^ p.W := by exact_mod_cast uval_lt p x
  unfold sval
  cases isneg p x <;> simp [hlt]

theorem sval_eq_zero_of_uval (p : Params) (x : Wide) (h : uval p x = 0) : sval p x = 0 := by
  simp [sval, isneg, h]

/-! ### The flags -/

/-- Instruction `i`, run at `s`, writes Z for the condition `P` and N for the condition `Q`, never both 1, and changes nothing else but pc: a
row of R40's table. -/
def FlagsResult (i : Instr) (s : State) (P Q : Prop) : Prop :=
  ∃ t, exec i s = .next t ∧ s.OnlyFlags t ∧ ¬(t.z = true ∧ t.n = true) ∧ (t.z = true ↔ P) ∧ (t.n = true ↔ Q)

theorem flagsResult_of_setFlags {z n : Bool} {P Q : Prop} (hexec : exec i s = .next (s.setFlags z n).advance)
    (hz : z = true ↔ P) (hn : n = true ↔ Q) (excl : P → ¬Q) : FlagsResult i s P Q :=
  ⟨_, hexec, rfl, fun ⟨htz, htn⟩ => excl (hz.1 htz) (hn.1 htn), hz, hn⟩

theorem FlagsResult.exclusive {P Q : Prop} (h : FlagsResult i s P Q) (hexec : exec i s = .next t) :
    ¬(t.z = true ∧ t.n = true) := by
  obtain ⟨u, hu, -, excl, -⟩ := h
  obtain rfl : u = t := by simpa using hu.symm.trans hexec
  exact excl

theorem exec_cmp_flags (s : State) (a b : WReg) : FlagsResult (.cmp a b) s
    (sval s.params (s.readW a) = sval s.params (s.readW b)) (sval s.params (s.readW a) < sval s.params (s.readW b)) :=
  flagsResult_of_setFlags rfl decide_eq_true_iff decide_eq_true_iff fun heq => heq.not_lt

theorem exec_tst_flags (s : State) (a : WReg) : FlagsResult (.tst a) s
    (uval s.params (s.readW a) = 0) (sval s.params (s.readW a) < 0) :=
  flagsResult_of_setFlags rfl (iszero_iff _ _) (isneg_iff_sval_neg _ _) fun h => (sval_eq_zero_of_uval _ _ h).not_lt

theorem exec_scmp_flags (s : State) (a b : SReg) : FlagsResult (.scmp a b) s
    ((s.readS a).toInt = (s.readS b).toInt) ((s.readS a).toInt < (s.readS b).toInt) :=
  flagsResult_of_setFlags rfl decide_eq_true_iff decide_eq_true_iff fun heq => heq.not_lt

theorem exec_stst_flags (s : State) (a : SReg) : FlagsResult (.stst a) s (s.readS a = 0) ((s.readS a).toInt < 0) :=
  flagsResult_of_setFlags rfl beq_iff_eq decide_eq_true_iff fun h => by simp [h]

/-- Z = N = 1 is the outcome of no flag-writing instruction (10_state.md R40). -/
theorem exec_flags_exclusive (hw : i.writesFlags = true) (hexec : exec i s = .next t) : ¬(t.z = true ∧ t.n = true) := by
  cases i with
  | cmp a b => exact (exec_cmp_flags s a b).exclusive hexec
  | tst a => exact (exec_tst_flags s a).exclusive hexec
  | scmp a b => exact (exec_scmp_flags s a b).exclusive hexec
  | stst a => exact (exec_stst_flags s a).exclusive hexec
  | _ => cases hw

/-- Only the instructions that the table names write a flag. -/
theorem InstrEnd.flags_eq (h : InstrEnd i s t) (hw : i.writesFlags = false) : t.z = s.z ∧ t.n = s.n := by
  cases h with
  | wide | jump | halt | fault => exact ⟨rfl, rfl⟩
  | scalar d v target => exact ⟨s.writeS_z d v, s.writeS_n d v⟩
  | store a bytes => exact ⟨s.dmemPutBytes_z a bytes, s.dmemPutBytes_n a bytes⟩
  | flags z n writes => simp [hw] at writes

/-- Settles O21, from a lemma for each of the four writers and the ends of all the others. -/
theorem flagsFollowTable : Obligations.FlagsFollowTable :=
  ⟨fun s a b _ => exec_cmp_flags s a b, fun s a _ => exec_tst_flags s a, exec_scmp_flags, exec_stst_flags,
    fun _ _ _ hw h => (instrEnd_of_exec h).flags_eq hw⟩

end Sys2Proof.Machine
end

section
/-! SUPPORT. What an instruction leaves of the registers (10_state.md R31, R36, R37): O13 and O14. -/

namespace Sys2Proof.Machine

variable {i : Instr} {s t : State}

theorem InstrEnd.readW_eq (h : InstrEnd i s t) (r : WReg) (hr : i.wideDest ≠ some r) : t.readW r = s.readW r := by
  cases h with
  | wide d v dest =>
    have hne : r ≠ d := fun e => hr (e ▸ dest)
    rw [State.readW_advance, State.readW_writeW, if_neg hne]
  | scalar d v target => exact s.readW_writeS d v r
  | store a bytes => exact s.readW_dmemPutBytes a bytes r
  | flags | jump | halt | fault => rfl

theorem InstrEnd.readS_eq (h : InstrEnd i s t) (r : SReg) (hr : i.scalarDest ≠ some r) : t.readS r = s.readS r := by
  cases h with
  | scalar d v target dest =>
    have hne : r ≠ d := fun e => hr (e ▸ dest)
    rw [State.readS_jump, State.readS_writeS, if_neg hne]
    split
    next h0 => rw [h0, State.readS_zero]
    next => rfl
  | store a bytes => exact s.readS_dmemPutBytes a bytes r
  | wide | flags | jump | halt | fault => rfl

/-- Settles O13: an instruction's ends write a wide register only in `InstrEnd.wide`, at the table's destination. -/
theorem wideWritesFollowTable : Obligations.WideWritesFollowTable :=
  fun _ _ _ r h hr => (instrEnd_of_exec h).readW_eq r hr

/-- Settles O14: an instruction's ends write a scalar register only in `InstrEnd.scalar`, at the table's destination; S0 reads 0 in every
state. -/
theorem scalarWritesFollowTable : Obligations.ScalarWritesFollowTable :=
  fun _ _ t h => ⟨fun r hr => (instrEnd_of_exec h).readS_eq r hr, t.readS_zero⟩

end Sys2Proof.Machine
end

section
/-! SUPPORT. The host window's map (10_state.md R48, 20_memory.md R80): the offset of each control register, the offsets that are
reserved, and the memory addresses that a window reaches; and the bounds that legal parameters give (00_scope.md R7). -/

namespace Sys2Proof.Machine

variable {s : State} {p : Params} {off : BitVec 20}

/-! ### Legal parameters -/

/-- The legal values of 00_scope.md R7, as bounds. -/
theorem Params.legal_iff : p.legal = true ↔
    (((((p.LB = 4 ∨ p.LB = 8) ∧ 2 ≤ p.N) ∧ 16 ≤ p.N * p.LB) ∧ p.N * p.LB ≤ 128) ∧ p.N * p.LB % 8 = 0) ∧
    ((((((p.SL < p.N ∧ 1 ≤ p.sqrtIters) ∧ p.sqrtIters ≤ 255) ∧ 1 ≤ p.imemWords) ∧ p.imemWords ≤ 65536) ∧
      4 ≤ p.dmemBytes) ∧ p.dmemBytes ≤ 65536) ∧ p.dmemBytes % 4 = 0 := by
  simp [Params.legal, Params.widthLegal, Params.sizesLegal]

/-- The limb width, the limb count and the scale fit the 8-bit fields of ID (10_state.md R50). -/
theorem Params.legal_id_fields (h : p.legal = true) : p.LB < 256 ∧ p.N < 256 ∧ p.SL < 256 := by
  obtain ⟨⟨⟨⟨⟨hLB, -⟩, -⟩, hW⟩, -⟩, ⟨⟨⟨⟨⟨⟨hSL, -⟩, -⟩, -⟩, -⟩, -⟩, -⟩, -⟩ := Params.legal_iff.1 h
  rcases hLB with hLB | hLB <;> rw [hLB] at hW ⊢ <;> omega

/-- The iteration budget and the memory sizes fit the fields of CFG and CFG2 (R51, R52). -/
theorem Params.legal_sizes (h : p.legal = true) :
    p.sqrtIters ≤ 255 ∧ p.imemWords ≤ 65536 ∧ p.dmemBytes ≤ 65536 ∧ p.dmemBytes % 4 = 0 := by
  obtain ⟨-, ⟨⟨⟨⟨⟨-, hiters⟩, -⟩, himem⟩, -⟩, hdmem⟩, hwords⟩ := Params.legal_iff.1 h
  exact ⟨hiters, himem, hdmem, hwords⟩

/-! ### The control registers -/

/-- The byte offset of a control register: the table of R48, read from the register's side (`windowTarget_offset`). -/
def ControlReg.offset : ControlReg → BitVec 20
  | .id => 0x00
  | .cfg => 0x04
  | .cfg2 => 0x08
  | .ctrl => 0x10
  | .status => 0x14
  | .startPC => 0x18
  | .pc => 0x1C
  | .flags => 0x20
  | .faultCause => 0x24
  | .faultPC => 0x28
  | .faultInfo => 0x2C

/-- The registers that ignore a write at any time (R48). -/
def ControlReg.readOnly : List ControlReg := [.id, .cfg, .cfg2, .pc, .flags, .faultCause, .faultPC, .faultInfo]

/-- The registers beside STATUS that a run does not hide (R49). -/
def ControlReg.shown : List ControlReg := [.id, .cfg, .cfg2, .ctrl, .startPC]

theorem windowTarget_offset (p : Params) (r : ControlReg) : windowTarget p r.offset = .control r := by
  cases r <;> rfl

theorem State.hostRead_offset (s : State) (r : ControlReg) : s.hostRead r.offset = s.readControl r := by
  simp [State.hostRead, windowTarget_offset]

theorem State.hostWrite_offset (s : State) (r : ControlReg) (data : Word) :
    s.hostWrite r.offset data = s.writeControl data r := by
  simp [State.hostWrite, windowTarget_offset]

/-- An offset below 0x40 reaches a control register or nothing. -/
theorem controlRegAt_cases (a : Nat) : (∃ r, controlRegAt a = .control r) ∨ controlRegAt a = .reserved := by
  unfold controlRegAt
  split <;> simp

/-! ### Reserved offsets -/

theorem State.hostRead_of_reserved (h : windowTarget s.params off = .reserved) : s.hostRead off = 0 := by
  simp [State.hostRead, h]

theorem State.hostWrite_of_reserved (h : windowTarget s.params off = .reserved) (data : Word) :
    s.hostWrite off data = s := by
  simp [State.hostWrite, h]

/-- The holes of the control registers' block: 0x0C, and 0x30 to 0x3C. -/
theorem windowTarget_control_hole (p : Params) (h : off.toNat / 4 ∈ [3, 12, 13, 14, 15]) :
    windowTarget p off = .reserved := by
  have hcase : ∀ q ∈ [3, 12, 13, 14, 15], q * 4 < 0x40 ∧ controlRegAt (q * 4) = .reserved := by decide
  obtain ⟨hlt, hres⟩ := hcase _ h
  simp [windowTarget, hlt, hres]

/-- The reserved offsets of R48 and R80 that no parameter moves. -/
theorem windowTarget_reserved (p : Params) (h : off.toNat / 4 = 3 ∨ (0x30 ≤ off.toNat ∧ off.toNat < 0x40) ∨
    (0x60 ≤ off.toNat ∧ off.toNat < 0x100) ∨ (0x180 ≤ off.toNat ∧ off.toNat < 0x40000) ∨
    0x90000 ≤ off.toNat) : windowTarget p off = .reserved := by
  rcases h with h | ⟨hlo, hhi⟩ | ⟨hlo, hhi⟩ | ⟨hlo, hhi⟩ | hlo
  · exact windowTarget_control_hole p (by simp [h])
  · exact windowTarget_control_hole p (by simp; omega)
  · unfold windowTarget
    rw [if_neg (by omega), if_neg (by omega), if_pos (by omega)]
  · unfold windowTarget
    rw [if_neg (by omega), if_neg (by omega), if_neg (by omega), if_neg (by omega), if_pos (by omega)]
  · unfold windowTarget
    rw [if_neg (by omega), if_neg (by omega), if_neg (by omega), if_neg (by omega), if_neg (by omega),
      if_neg (by omega), if_neg (by omega)]

/-- Bits [1:0] of an offset are ignored (R80). -/
theorem windowTarget_align (p : Params) (off : BitVec 20) :
    windowTarget p (BitVec.ofNat 20 (off.toNat / 4 * 4)) = windowTarget p off := by
  have halign : (BitVec.ofNat 20 (off.toNat / 4 * 4)).toNat / 4 * 4 = off.toNat / 4 * 4 := by
    rw [BitVec.toNat_ofNat, Nat.mod_eq_of_lt (by omega)]
    omega
  simp only [windowTarget, halign]

/-! ### The memory windows -/

/-- The memory windows reach only words and bytes that exist, the DMEM window by whole words (20_memory.md R83, R84). -/
def WindowTarget.InMemory (p : Params) : WindowTarget → Prop
  | .imem k => k < p.imemWords
  | .dmem a => a < p.dmemBytes ∧ a % 4 = 0
  | .control _ | .scalar _ | .wide _ _ | .reserved => True

theorem controlRegAt_inMemory (p : Params) (a : Nat) : (controlRegAt a).InMemory p := by
  rcases controlRegAt_cases a with ⟨r, hr⟩ | hr <;> rw [hr] <;> trivial

theorem WindowTarget.InMemory.ite {c : Prop} [Decidable c] {a b : WindowTarget} (ha : c → a.InMemory p)
    (hb : ¬c → b.InMemory p) : (if c then a else b).InMemory p := by
  split
  next h => exact ha h
  next h => exact hb h

theorem windowTarget_inMemory (p : Params) (off : BitVec 20) : (windowTarget p off).InMemory p := by
  have hwords : ∀ a, ¬a / 4 * 4 < 0x80000 → (a / 4 * 4 - 0x80000) % 4 = 0 := by omega
  exact .ite (fun _ => controlRegAt_inMemory p _) fun _ =>
    .ite (fun _ => True.intro) fun _ => .ite (fun _ => True.intro) fun _ =>
    .ite (fun _ => True.intro) fun _ => .ite (fun _ => True.intro) fun _ =>
    .ite (fun _ => .ite id fun _ => True.intro) fun himem =>
    .ite (fun _ => .ite (fun hdmem => ⟨hdmem, hwords _ himem⟩) fun _ => True.intro) fun _ => True.intro

end Sys2Proof.Machine
end

section
/-! SUPPORT. The control registers as the host reads and writes them (10_state.md R48 to R60): O49, O52, O53, O56 and O60. -/

namespace Sys2Proof.Machine

variable {s : State} {p : Params} {data : Word}

/-! ### The words of the registers of single bits -/

/-- Four flags in bits 0 to 3 of a word, as in STATUS (R54). -/
theorem fourBits_word : ∀ b d f i : Bool,
    let w : Word := BitVec.ofNat 32 (bitAt b 0 + bitAt d 1 + bitAt f 2 + bitAt i 3)
    w.getLsbD 0 = b ∧ w.getLsbD 1 = d ∧ w.getLsbD 2 = f ∧ w.getLsbD 3 = i ∧ bits w 31 4 = 0 := by decide

/-- Two flags in bits 0 and 1 of a word, as in FLAGS (R57). -/
theorem twoBits_word : ∀ z n : Bool,
    let w : Word := BitVec.ofNat 32 (bitAt z 0 + bitAt n 1)
    w.getLsbD 0 = z ∧ w.getLsbD 1 = n ∧ bits w 31 2 = 0 := by decide

/-- CTRL's word: IRQ_EN in bit 2, and 0 where START and SRESET are written (R53). -/
theorem irqEnBit_word : ∀ e : Bool,
    let w : Word := BitVec.ofNat 32 (bitAt e 2)
    w.getLsbD 2 = e ∧ bits w 1 0 = 0 ∧ bits w 31 3 = 0 := by decide

theorem State.statusWord_bits (s : State) :
    s.statusWord.getLsbD 0 = s.busy ∧ s.statusWord.getLsbD 1 = s.done ∧ s.statusWord.getLsbD 2 = s.faulted ∧
    s.statusWord.getLsbD 3 = s.irq ∧ bits s.statusWord 31 4 = 0 :=
  fourBits_word s.busy s.done s.faulted s.irq

/-! ### The words of the constants -/

theorem Params.idWord_fields (h : p.legal = true) :
    bits (Params.idWord p) 7 0 = p.LB ∧ bits (Params.idWord p) 15 8 = p.N ∧ bits (Params.idWord p) 23 16 = p.SL ∧ bits (Params.idWord p) 31 24 = 0x01 := by
  obtain ⟨hLB, hN, hSL⟩ := Params.legal_id_fields h
  simp only [bits, Params.idWord, BitVec.toNat_ofNat]
  omega

theorem Params.cfgWord_fields (h : p.legal = true) :
    bits (Params.cfgWord p) 15 0 = p.imemWords - 1 ∧ bits (Params.cfgWord p) 31 16 = p.dmemBytes - 1 := by
  obtain ⟨-, himem, hdmem, -⟩ := Params.legal_sizes h
  simp only [bits, Params.cfgWord, BitVec.toNat_ofNat]
  omega

theorem Params.cfg2Word_toNat (h : p.legal = true) : (Params.cfg2Word p).toNat = p.sqrtIters := by
  obtain ⟨hiters, -⟩ := Params.legal_sizes h
  exact Nat.mod_eq_of_lt (by omega)

theorem bits_zeroExtend_half (v : Half) :
    bits (v.zeroExtend 32) 15 0 = v.toNat ∧ bits (v.zeroExtend 32) 31 16 = 0 := by
  simp only [bits, BitVec.toNat_setWidth]
  omega

/-! ### Reads -/

theorem State.whenIdle_of_busy (h : s.busy = true) (w : Word) : s.whenIdle w = 0 := by simp [State.whenIdle, h]

theorem State.whenIdle_of_idle (h : s.busy = false) (w : Word) : s.whenIdle w = w := by simp [State.whenIdle, h]

theorem State.readControl_not_hidden (s : State) (r : ControlReg) (h : r ∈ ControlReg.shown) :
    s.readControl r = { s with busy := false }.readControl r := by
  unfold ControlReg.shown at h
  fin_cases h <;> rfl

/-- Settles O53: each register's word, taken apart into its fields. -/
theorem controlRegisterReads : Obligations.ControlRegisterReads := by
  intro s hp hidle
  obtain ⟨hLB, hN, hSL, hversion⟩ := Params.idWord_fields hp
  obtain ⟨himem, hdmem⟩ := Params.cfgWord_fields hp
  obtain ⟨hbusy, hdone, hfault, hirq, hstatus⟩ := s.statusWord_bits
  obtain ⟨hirqEn, hstart, hctrl⟩ := irqEnBit_word s.irqEn
  obtain ⟨hstartPC, hstartPC0⟩ := bits_zeroExtend_half s.startPC
  obtain ⟨hz, hn, hflags⟩ := twoBits_word s.z s.n
  have hidleRead (w : Word) : s.whenIdle w = w := State.whenIdle_of_idle hidle w
  have hflagsRead : s.hostRead 0x20 = BitVec.ofNat 32 (bitAt s.z 0 + bitAt s.n 1) := hidleRead _
  rw [hflagsRead]
  exact ⟨hLB, hN, hSL, hversion, himem, hdmem, Params.cfg2Word_toNat hp, hbusy.trans hidle, hdone, hfault, hirq, hstatus,
    hirqEn, hstart, hctrl, hstartPC, hstartPC0, hidleRead _, hz, hn, hflags, hidleRead _, hidleRead _, hidleRead _⟩

/-! ### Writes -/

theorem State.writeIdle_of_busy (h : s.busy = true) (t : State) : s.writeIdle t = s := by simp [State.writeIdle, h]

theorem State.writeIdle_of_idle (h : s.busy = false) (t : State) : s.writeIdle t = t := by simp [State.writeIdle, h]

theorem State.writeStatus_of_clear (s : State) (h3 : data.getLsbD 3 = true) :
    s.writeStatus data = { s with irq := false } := if_pos h3

theorem State.hostWrite_ctrl (s : State) (data : Word) : s.hostWrite 0x10 data = s.writeCtrl data :=
  s.hostWrite_offset .ctrl data

theorem State.hostWrite_status (s : State) (data : Word) : s.hostWrite 0x14 data = s.writeStatus data :=
  s.hostWrite_offset .status data

theorem State.hostWrite_startPC (s : State) (data : Word) :
    s.hostWrite 0x18 data = s.writeIdle { s with startPC := data.setWidth 16 } :=
  s.hostWrite_offset .startPC data

/-- SRESET wins over START (R53). -/
theorem State.writeCtrl_of_sreset (s : State) (h1 : data.getLsbD 1 = true) :
    s.writeCtrl data = { s with irqEn := data.getLsbD 2 }.softReset := by
  simp [State.writeCtrl, h1]

/-- A CTRL write that neither resets nor starts stores IRQ_EN and does nothing else (R53). -/
theorem State.writeCtrl_of_plain (s : State) (h1 : data.getLsbD 1 = false)
    (h0 : data.getLsbD 0 = false ∨ s.busy = true) : s.writeCtrl data = { s with irqEn := data.getLsbD 2 } := by
  rcases s.writeCtrl_cases data with ⟨sreset, -⟩ | ⟨-, start, idle, -⟩ | ⟨-, -, e⟩
  · cases h1.symm.trans sreset
  · rcases h0 with h0 | hbusy
    · cases h0.symm.trans start
    · cases idle.symm.trans hbusy
  · exact e

theorem State.writeControl_readOnly (s : State) (data : Word) (r : ControlReg)
    (h : r ∈ ControlReg.readOnly) : s.writeControl data r = s := by
  unfold ControlReg.readOnly at h
  fin_cases h <;> rfl

/-- Settles O49: the soft reset, over a state whose IRQ_EN is the one written. -/
theorem softResetByHost : Obligations.SoftResetByHost := by
  intro s data h1
  rw [s.hostWrite_ctrl, s.writeCtrl_of_sreset h1]
  rfl

/-- Settles O60: START_PC stores while idle, the read-only registers never, and a plain CTRL write reaches IRQ_EN alone. -/
theorem controlRegisterWrites : Obligations.ControlRegisterWrites := by
  intro s data
  refine ⟨fun hidle => ?_, ?_, fun h0 h1 => ?_⟩
  · have hwrite : s.hostWrite 0x18 data = { s with startPC := data.setWidth 16 } := by
      rw [s.hostWrite_startPC, State.writeIdle_of_idle hidle]
    rw [hwrite]
    exact ⟨rfl, State.hostRead_offset _ .startPC⟩
  · have hreadOnly (r : ControlReg) (h : r ∈ ControlReg.readOnly) :
        s.hostWrite r.offset data = s := by
      rw [s.hostWrite_offset, s.writeControl_readOnly data r h]
    show ∀ off ∈ ControlReg.readOnly.map ControlReg.offset, s.hostWrite off data = s
    rwa [List.forall_mem_map]
  · rw [s.hostWrite_ctrl, s.writeCtrl_of_plain h1 (.inl h0)]

/-- Settles O52: a run hides the registers of its progress, and leaves the constants, CTRL, STATUS and START_PC to be read. -/
theorem controlRegistersWhileBusy : Obligations.ControlRegistersWhileBusy := by
  intro s data hbusy
  obtain ⟨hb, hd, hf, hi, hrest⟩ := s.statusWord_bits
  have hidden (w : Word) : s.whenIdle w = 0 := State.whenIdle_of_busy hbusy w
  have hshown (r : ControlReg) (h : r ∈ ControlReg.shown) :
      s.hostRead r.offset = { s with busy := false }.hostRead r.offset := by
    rw [State.hostRead_offset, State.hostRead_offset, s.readControl_not_hidden r h]
  refine ⟨rfl, rfl, rfl, rfl, ?_, hb.trans hbusy, hd, hf, hi, hrest, rfl, ?_,
    hidden _, hidden _, hidden _, hidden _, hidden _, fun h3 => ?_, fun h1 => ?_, fun h1 => ?_⟩
  · show ∀ off ∈ ControlReg.shown.map ControlReg.offset, s.hostRead off = { s with busy := false }.hostRead off
    rwa [List.forall_mem_map]
  · rw [s.hostWrite_startPC, State.writeIdle_of_busy hbusy]
  · rw [s.hostWrite_status, s.writeStatus_of_clear h3]
  · rw [s.hostWrite_ctrl, s.writeCtrl_of_plain h1 (.inr hbusy)]
  · rw [s.hostWrite_ctrl, s.writeCtrl_of_sreset h1]

/-! ### Reserved offsets and the ignored offset bits -/

/-- Settles O56: an access depends on its offset through the window's map alone. -/
theorem reservedOffsets : Obligations.ReservedOffsets := by
  intro s off data
  refine ⟨fun h => ?_, ?_, ?_⟩
  · have hres := windowTarget_reserved s.params h
    exact ⟨State.hostRead_of_reserved hres, State.hostWrite_of_reserved hres data⟩
  · simp only [State.hostRead, windowTarget_align]
  · simp only [State.hostWrite, windowTarget_align]

end Sys2Proof.Machine
end

section
/-! SUPPORT. The invariant of 10_state.md R30 to R60 and 20_memory.md R70: each operation on the state keeps it, then each instruction, each
event from outside, and so each step (O46). -/

namespace Sys2Proof.Machine

variable {i : Instr} {s t : State}

/-! ### Operations that write a register, a flag or a memory -/

/-- In a run no fault is recorded, no run has ended, and IRQ is 0 (R54). -/
theorem State.Inv.running (h : s.Inv) (hbusy : s.busy = true) : s.done = false ∧ s.faulted = false ∧ s.irq = false := by
  obtain ⟨hdone, hfault⟩ := h.status.1 hbusy
  refine ⟨hdone, hfault, Bool.eq_false_iff.2 fun hirq => ?_⟩
  rcases h.irq hirq with hd | hf
  · cases hdone.symm.trans hd
  · cases hfault.symm.trans hf

theorem State.Inv.writeW (h : s.Inv) (d : WReg) (v : Wide) : (s.writeW d v).Inv :=
  { h with
    wide := fun r => by
      rw [State.writeW_wide, State.writeW_params, Vector.get_eq_getElem, Vector.getElem_set]
      split
      · exact truncW_lt _ _
      · exact h.wide r }

theorem State.Inv.writeS (h : s.Inv) (d : SReg) (v : Half) : (s.writeS d v).Inv := by
  unfold State.writeS
  split
  · exact h
  next hd =>
    have hne : d.val ≠ 0 := fun e => hd (Fin.ext e)
    exact { h with scalar_zero := (Vector.getElem_set_ne d.isLt (by decide) hne).trans h.scalar_zero }

theorem State.Inv.setFlags (h : s.Inv) {z n : Bool} (excl : ¬(z = true ∧ n = true)) : (s.setFlags z n).Inv :=
  { h with flags := excl }

/-- A recorded fault names the pc it was taken at (R59), so only an engine without one may move pc. -/
theorem State.Inv.jump (h : s.Inv) (hf : s.faulted = false) (target : Half) : (s.jump target).Inv :=
  { h with
    fault := by simpa [State.faultOk, hf] using h.fault }

theorem State.Inv.dmemPut (h : s.Inv) (a : Nat) (v : Byte) (ha : a < s.params.dmemBytes) : (s.dmemPut a v).Inv :=
  { h with
    memory := by
      obtain ⟨himem, himemBelow, hdmem, hdmemBelow⟩ := h.memory
      exact ⟨himem, himemBelow, Memory.wf_put _ _ _ hdmem, Memory.below_put _ _ _ _ ha hdmemBelow⟩ }

theorem State.Inv.dmemPutBytes (h : s.Inv) (a : Nat) (bytes : List Byte) (ha : a + bytes.length ≤ s.params.dmemBytes) :
    (s.dmemPutBytes a bytes).Inv := by
  induction bytes generalizing s a with
  | nil => exact h
  | cons v vs ih =>
    rw [List.length_cons] at ha
    exact ih (h.dmemPut a v (by omega)) (a + 1) (by rw [State.dmemPut_params]; omega)

theorem State.Inv.imemPut (h : s.Inv) (k : Nat) (w : Word) (hk : k < s.params.imemWords) : (s.imemPut k w).Inv :=
  { h with
    memory := by
      obtain ⟨himem, himemBelow, hdmem⟩ := h.memory
      exact ⟨Memory.wf_put _ _ _ himem, Memory.below_put _ _ _ _ hk himemBelow, hdmem⟩ }

/-! ### Ends and beginnings of a run -/

theorem State.Inv.halt (h : s.Inv) (hbusy : s.busy = true) : s.halt.Inv :=
  { h with
    status := ⟨nofun, fun _ => (h.running hbusy).2.1⟩
    irq := fun _ => .inl rfl }

theorem State.Inv.raiseFault (h : s.Inv) (hbusy : s.busy = true) (c : Cause) (info : Word) : (s.raiseFault c info).Inv := by
  obtain ⟨hdone, -⟩ := h.running hbusy
  exact { h with
    status := ⟨nofun, fun hd => absurd (hdone.symm.trans hd) nofun⟩
    irq := fun _ => .inr rfl
    fault := ⟨⟨c, rfl⟩, rfl⟩ }

theorem State.Inv.start (h : s.Inv) : s.start.Inv :=
  { h with
    status := ⟨fun _ => ⟨rfl, rfl⟩, nofun⟩
    irq := nofun
    fault := ⟨rfl, rfl, rfl⟩ }

theorem State.Inv.softReset (h : s.Inv) : s.softReset.Inv :=
  { h with
    status := ⟨nofun, nofun⟩
    irq := nofun
    fault := ⟨rfl, rfl, rfl⟩
    flags := nofun
    wide := fun r => by simp [Vector.get_eq_getElem]
    scalar_zero := rfl }

/-! ### Instructions -/

theorem State.storeNext_inv (h : s.Inv) (hbusy : s.busy = true) {ea : Half} {n v : Nat}
    (hnext : s.storeNext ea n v = .next t) : t.Inv := by
  rcases s.storeNext_cases ea n v with ⟨hin, e⟩ | ⟨-, e⟩
  · obtain rfl : _ = t := by simpa using e.symm.trans hnext
    have hstored := h.dmemPutBytes ea.toNat (valueBytes n v) (by rwa [length_valueBytes])
    exact hstored.jump (by simpa using (h.running hbusy).2.1) _
  · obtain rfl : _ = t := by simpa using e.symm.trans hnext
    exact h.raiseFault hbusy _ _

/-- The stores check their bounds before they store (20_memory.md R73). -/
theorem exec_store_inv (h : s.Inv) (hbusy : s.busy = true) (hstore : i.storesNothing = false)
    (hexec : exec i s = .next t) : t.Inv := by
  cases i with
  | stw d a simm => exact State.storeNext_inv h hbusy hexec
  | sts d a simm => exact State.storeNext_inv h hbusy hexec
  | _ => cases hstore

theorem exec_inv (h : s.Inv) (hbusy : s.busy = true) (hexec : exec i s = .next t) : t.Inv := by
  obtain ⟨-, hf, -⟩ := h.running hbusy
  cases instrEnd_of_exec hexec with
  | wide d v => exact (h.writeW d v).jump hf _
  | scalar d v target => exact (h.writeS d v).jump ((s.writeS_faulted d v).trans hf) target
  | flags z n writes => exact (h.setFlags (exec_flags_exclusive writes hexec)).jump hf _
  | store a bytes stores => exact exec_store_inv h hbusy stores hexec
  | jump target => exact h.jump hf target
  | halt => exact h.halt hbusy
  | fault c info => exact h.raiseFault hbusy c info

theorem engineStep_inv (h : s.Inv) (hbusy : s.busy = true) (hstep : engineStep s = .next t) : t.Inv := by
  rcases engineStep_cases hstep with ⟨i, -, hexec⟩ | ⟨c, info, -, rfl⟩
  · exact exec_inv h hbusy hexec
  · exact h.raiseFault hbusy c info

/-! ### The outside -/

theorem State.Inv.writeIdle (h : s.Inv) (ht : t.Inv) : (s.writeIdle t).Inv := by
  unfold State.writeIdle
  split
  · exact h
  · exact ht

theorem State.Inv.writeCtrl (h : s.Inv) (data : Word) : (s.writeCtrl data).Inv := by
  have hirqEn : { s with irqEn := data.getLsbD 2 }.Inv := { h with }
  rcases s.writeCtrl_cases data with ⟨-, e⟩ | ⟨-, -, -, e⟩ | ⟨-, -, e⟩ <;> rw [e]
  · exact hirqEn.softReset
  · exact hirqEn.start
  · exact hirqEn

theorem State.Inv.writeStatus (h : s.Inv) (data : Word) : (s.writeStatus data).Inv := by
  unfold State.writeStatus
  split
  · exact { h with irq := nofun }
  · exact h

theorem State.Inv.writeControl (h : s.Inv) (data : Word) (r : ControlReg) : (s.writeControl data r).Inv := by
  cases r with
  | ctrl => exact h.writeCtrl data
  | status => exact h.writeStatus data
  | startPC => exact h.writeIdle (t := { s with startPC := data.setWidth 16 }) { h with }
  | id | cfg | cfg2 | pc | flags | faultCause | faultPC | faultInfo => exact h

theorem State.Inv.hostWrite (h : s.Inv) (off : BitVec 20) (data : Word) : (s.hostWrite off data).Inv := by
  have hmem := windowTarget_inMemory s.params off
  obtain ⟨-, -, -, hwords⟩ := Params.legal_sizes h.params_legal
  unfold State.hostWrite
  cases htarget : windowTarget s.params off with
  | control r => exact h.writeControl data r
  | scalar d => exact h.writeIdle (h.writeS d _)
  | wide d j => exact h.writeIdle (h.writeW d _)
  | imem k =>
    rw [htarget] at hmem
    exact h.writeIdle (h.imemPut k data hmem)
  | dmem a =>
    rw [htarget] at hmem
    obtain ⟨hlt, halign⟩ := hmem
    exact h.writeIdle (h.dmemPutBytes a _ (by rw [length_valueBytes]; omega))
  | reserved => exact h

theorem State.Inv.hostEvent (h : s.Inv) (e : HostEvent) : (s.hostEvent e).Inv := by
  cases e with
  | quiet => exact h
  | read off => exact { h with }
  | write off data => exact h.hostWrite off data
  | hardReset => exact { h.softReset with }

theorem State.Inv.hostTurn (h : s.Inv) : s.hostTurn.Inv := by
  rcases s.hostTurn_cases with ⟨-, e⟩ | ⟨ev, rest, -, e⟩ <;> rw [e]
  · exact h
  · exact State.Inv.hostEvent (s := { s with hostQueue := rest }) { h with } ev

/-- Settles O46: the sequencer's step keeps the invariant in a run, and the outside's turn keeps it always. -/
theorem stepKeepsInvariant : Obligations.StepKeepsInvariant := by
  intro s t hinv hstep
  obtain ⟨-, ⟨hbusy, u, hu, rfl⟩ | ⟨-, rfl⟩⟩ := step_cases hstep
  · exact (engineStep_inv hinv hbusy hu).hostTurn
  · exact hinv.hostTurn

end Sys2Proof.Machine
end

section
/-! SUPPORT. What an instruction leaves of the memories and of what belongs to the host (20_memory.md R71 to R73, R89; 10_state.md R53,
R55): O15 and O16. -/

namespace Sys2Proof.Machine

variable {i : Instr} {s t : State}

theorem State.imemWord_congr (h : t.imem = s.imem) (k : Nat) : t.imemWord k = s.imemWord k := by
  unfold State.imemWord; rw [h]

/-- DMEM is written in `InstrEnd.store` alone. -/
theorem InstrEnd.dmem_eq (h : InstrEnd i s t) (hi : i.storesNothing = true) : t.dmem = s.dmem := by
  cases h with
  | store a bytes stores => cases hi.symm.trans stores
  | scalar d v target => exact s.writeS_dmem d v
  | wide | flags | jump | halt | fault => rfl

/-- A store keeps every byte outside its access, whether it ends well or faults (20_memory.md R73). -/
theorem State.storeNext_dmemByte_outside {ea : Half} {n v b : Nat} (h : s.storeNext ea n v = .next t)
    (hb : b < ea.toNat ∨ ea.toNat + n ≤ b) : t.dmemByte b = s.dmemByte b := by
  rcases s.storeNext_cases ea n v with ⟨-, e⟩ | ⟨-, e⟩
  · obtain rfl : _ = t := by simpa using e.symm.trans h
    exact s.dmemByte_dmemPutBytes_outside ea.toNat _ b (by rwa [length_valueBytes])
  · obtain rfl : _ = t := by simpa using e.symm.trans h
    rfl

/-- Settles O15: the 43 other instructions end without `InstrEnd.store`, and the two stores keep the bytes outside their access. -/
theorem onlyStoresChangeDmem : Obligations.OnlyStoresChangeDmem := by
  intro i s t hexec
  refine ⟨fun hi => State.dmemByte_congr s t ((instrEnd_of_exec hexec).dmem_eq hi), ?_, ?_⟩
  · rintro d a simm rfl b hb
    exact State.storeNext_dmemByte_outside hexec hb
  · rintro d a simm rfl b hb
    exact State.storeNext_dmemByte_outside hexec hb

/-- No end of an instruction writes IMEM, START_PC, IRQ_EN, or what the model keeps of the outside. -/
theorem InstrEnd.hostState_eq (h : InstrEnd i s t) :
    t.imem = s.imem ∧ t.startPC = s.startPC ∧ t.irqEn = s.irqEn ∧ t.hostQueue = s.hostQueue ∧ t.busData = s.busData := by
  cases h with
  | scalar => simp
  | store => simp
  | wide | flags | jump | halt | fault => exact ⟨rfl, rfl, rfl, rfl, rfl⟩

/-- Settles O16: the fields of the host stay through every end of an instruction. -/
theorem instructionsKeepHostState : Obligations.InstructionsKeepHostState := by
  intro i s t hexec
  have hend := instrEnd_of_exec hexec
  obtain ⟨himem, hstartPC, hirqEn, hqueue, hbus⟩ := hend.hostState_eq
  exact ⟨State.imemWord_congr himem, hend.params_eq, hstartPC, hirqEn, hqueue, hbus⟩

end Sys2Proof.Machine
end

section
/-! SUPPORT. Little-endian values of DMEM's bytes (20_memory.md R72 to R74): each byte of a value, and the value of a shorter or a longer
access at the same address. -/

namespace Sys2Proof.Machine

variable {s t : State}

/-! ### Values and their bytes -/

theorem bytesValue_lt (bs : List Byte) : bytesValue bs < 256 ^ bs.length := by
  induction bs with
  | nil => simp [bytesValue]
  | cons b bs ih =>
    rw [bytesValue, List.length_cons, Nat.pow_succ']
    omega

theorem bytesValue_append (bs cs : List Byte) :
    bytesValue (bs ++ cs) = bytesValue bs + 256 ^ bs.length * bytesValue cs := by
  induction bs with
  | nil => simp [bytesValue]
  | cons b bs ih =>
    rw [List.cons_append, bytesValue, bytesValue, ih, List.length_cons, Nat.pow_succ']
    ring

theorem div_two_pow_byte_succ (v j : Nat) : v / 2 ^ (8 * (j + 1)) = v / 256 / 2 ^ (8 * j) := by
  rw [Nat.div_div_eq_div_mul, Nat.mul_succ, Nat.pow_add, Nat.mul_comm]

/-- Byte `j` of the value of a list of bytes is the list's byte `j` (R74). -/
theorem byte_bytesValue (bs : List Byte) (j : Nat) (h : j < bs.length) :
    BitVec.ofNat 8 (bytesValue bs / 2 ^ (8 * j)) = bs[j] := by
  induction bs generalizing j with
  | nil => simp at h
  | cons b bs ih =>
    cases j with
    | zero =>
      apply BitVec.eq_of_toNat_eq
      simp [bytesValue]
      omega
    | succ j =>
      have hdiv : bytesValue (b :: bs) / 256 = bytesValue bs := by rw [bytesValue]; omega
      rw [div_two_pow_byte_succ, hdiv]
      exact ih j (by simpa using h)

theorem getElem_valueBytes (n v j : Nat) (h : j < (valueBytes n v).length) :
    (valueBytes n v)[j] = BitVec.ofNat 8 (v / 2 ^ (8 * j)) := by
  induction n generalizing v j with
  | zero => simp [valueBytes] at h
  | succ n ih =>
    cases j with
    | zero => simp [valueBytes]
    | succ j =>
      rw [div_two_pow_byte_succ]
      exact ih (v / 256) j (by simpa using h)

/-! ### Bytes of DMEM -/

theorem State.getElem_dmemBytes (s : State) (a n j : Nat) (h : j < (s.dmemBytes a n).length) :
    (s.dmemBytes a n)[j] = s.dmemByte (a + j) := by
  induction n generalizing a j with
  | zero => simp at h
  | succ n ih =>
    cases j with
    | zero => rfl
    | succ j => exact (ih (a + 1) j (by simpa using h)).trans (by rw [Nat.add_assoc, Nat.add_comm 1 j])

theorem State.dmemBytes_congr {a n : Nat} (h : ∀ j < n, t.dmemByte (a + j) = s.dmemByte (a + j)) :
    t.dmemBytes a n = s.dmemBytes a n :=
  List.ext_getElem (by simp) fun j hj _ => by
    rw [State.getElem_dmemBytes, State.getElem_dmemBytes, h j (by simpa using hj)]

theorem State.dmemBytes_add (s : State) (a m n : Nat) :
    s.dmemBytes a (m + n) = s.dmemBytes a m ++ s.dmemBytes (a + m) n := by
  induction m generalizing a with
  | zero => simp [State.dmemBytes]
  | succ m ih =>
    rw [Nat.succ_add, State.dmemBytes, ih, State.dmemBytes, List.cons_append, Nat.add_assoc, Nat.add_comm 1 m]

/-- The value that an access of `n` bytes at `a` reads (R72). -/
def State.dmemValue (s : State) (a n : Nat) : Nat := bytesValue (s.dmemBytes a n)

theorem State.dmemValue_lt (s : State) (a n : Nat) : s.dmemValue a n < 256 ^ n := by
  simpa [State.dmemValue] using bytesValue_lt (s.dmemBytes a n)

theorem State.dmemValue_add (s : State) (a m n : Nat) :
    s.dmemValue a (m + n) = s.dmemValue a m + 256 ^ m * s.dmemValue (a + m) n := by
  simp [State.dmemValue, State.dmemBytes_add, bytesValue_append]

/-- The low bytes of a longer access are the shorter access at the same address. -/
theorem State.dmemValue_mod_of_le (s : State) (a : Nat) {m n : Nat} (h : m ≤ n) :
    s.dmemValue a n % 256 ^ m = s.dmemValue a m := by
  obtain ⟨k, rfl⟩ := Nat.exists_eq_add_of_le h
  rw [State.dmemValue_add, Nat.add_mul_mod_self_left, Nat.mod_eq_of_lt (s.dmemValue_lt a m)]

/-- Two accesses at one address agree on the bytes of the shorter. -/
theorem State.dmemValue_mod_comm (s : State) (a m n : Nat) :
    s.dmemValue a m % 256 ^ n = s.dmemValue a n % 256 ^ m := by
  wlog h : m ≤ n generalizing m n
  · exact (this n m (by omega)).symm
  have hlt : s.dmemValue a m < 256 ^ n := (s.dmemValue_lt a m).trans_le (Nat.pow_le_pow_right (by decide) h)
  rw [s.dmemValue_mod_of_le a h, Nat.mod_eq_of_lt hlt]

theorem State.byte_dmemValue (s : State) {a n j : Nat} (h : j < n) :
    BitVec.ofNat 8 (s.dmemValue a n / 2 ^ (8 * j)) = s.dmemByte (a + j) := by
  have hj : j < (s.dmemBytes a n).length := by simpa using h
  rw [State.dmemValue, byte_bytesValue _ j hj, State.getElem_dmemBytes]

/-! ### Stores -/

theorem State.dmemPutBytes_frame (s : State) (a : Nat) (bs : List Byte) :
    s.dmemPutBytes a bs = { s with dmem := (s.dmemPutBytes a bs).dmem } := by
  induction bs generalizing s a with
  | nil => rfl
  | cons b bs ih => exact ih (s.dmemPut a b) (a + 1)

theorem State.dmemValue_dmemPutBytes (s : State) (a n v : Nat) :
    (s.dmemPutBytes a (valueBytes n v)).dmemValue a n = v % 256 ^ n := by
  have hread := s.dmemBytes_dmemPutBytes a (valueBytes n v)
  rw [length_valueBytes] at hread
  rw [State.dmemValue, hread, bytesValue_valueBytes]

theorem State.dmemByte_dmemPutBytes_value (s : State) (a v : Nat) {n j : Nat} (h : j < n) :
    (s.dmemPutBytes a (valueBytes n v)).dmemByte (a + j) = BitVec.ofNat 8 (v / 2 ^ (8 * j)) := by
  have hj : j < (valueBytes n v).length := by simpa using h
  rw [State.dmemByte_dmemPutBytes_inside _ _ _ j hj, getElem_valueBytes]

/-- An access beside the bytes stored reads what it read before. -/
theorem State.dmemValue_dmemPutBytes_outside (s : State) {a n b m : Nat} (v : Nat) (h : b + m ≤ a ∨ a + n ≤ b) :
    (s.dmemPutBytes a (valueBytes n v)).dmemValue b m = s.dmemValue b m := by
  have hbytes : (s.dmemPutBytes a (valueBytes n v)).dmemBytes b m = s.dmemBytes b m :=
    State.dmemBytes_congr fun j hj =>
      s.dmemByte_dmemPutBytes_outside a _ (b + j) (by rw [length_valueBytes]; omega)
  rw [State.dmemValue, hbytes, State.dmemValue]

end Sys2Proof.Machine
end

section
/-! SUPPORT. Stores and loads whose access lies in DMEM (47_memory_ops.md R270 to R274), and a load after a store to the same bytes
(20_memory.md R75, R86): O44. -/

namespace Sys2Proof.Machine

variable {s : State} {p : Params} {a : SReg} {simm : Half}

/-! ### The bytes of a wide register -/

/-- A wide value fills its bytes: W is a multiple of 8 (00_scope.md R7), from 16 to 128. -/
theorem Params.legal_wideBytes (h : p.legal = true) : 8 * p.wideBytes = p.W ∧ 2 ≤ p.wideBytes ∧ p.W ≤ 128 := by
  obtain ⟨⟨⟨⟨-, hlo⟩, hhi⟩, hbytes⟩, -⟩ := Params.legal_iff.1 h
  unfold Params.wideBytes Params.W
  omega

theorem Params.pow_wideBytes (h : p.legal = true) : 256 ^ p.wideBytes = 2 ^ p.W := by
  obtain ⟨hW, -⟩ := Params.legal_wideBytes h
  rw [← hW, Nat.pow_mul]

theorem toNat_truncW_ofNat {v : Nat} (hW : p.W ≤ 128) (hv : v < 2 ^ p.W) :
    (truncW p (BitVec.ofNat 128 v)).toNat = v := by
  have hcell : (BitVec.ofNat 128 v).toNat = v :=
    Nat.mod_eq_of_lt (hv.trans_le (Nat.pow_le_pow_right (by decide) hW))
  rw [truncW_of_lt _ _ (hcell.trans_lt hv), hcell]

/-! ### Accesses in bounds -/

/-- The state after a store in bounds: the `n` bytes of `v` at `ea`, and the next instruction. -/
def State.stored (s : State) (ea n v : Nat) : State := (s.dmemPutBytes ea (valueBytes n v)).advance

@[simp] theorem State.stored_params (ea n v : Nat) : (s.stored ea n v).params = s.params := by simp [State.stored]
@[simp] theorem State.stored_readS (ea n v : Nat) (r : SReg) : (s.stored ea n v).readS r = s.readS r := by
  simp [State.stored]
@[simp] theorem State.stored_effAddr (ea n v : Nat) (r : SReg) (offset : Half) :
    (s.stored ea n v).effAddr r offset = s.effAddr r offset := by simp [State.effAddr]

theorem State.dmemValue_advance (b m : Nat) : s.advance.dmemValue b m = s.dmemValue b m := by
  rw [State.dmemValue, State.dmemBytes_congr (s := s) (t := s.advance) fun _ _ => rfl, State.dmemValue]

theorem State.stored_dmemValue (s : State) (ea n v : Nat) : (s.stored ea n v).dmemValue ea n = v % 256 ^ n :=
  (State.dmemValue_advance ea n).trans (s.dmemValue_dmemPutBytes ea n v)

theorem State.stored_dmemValue_outside {ea n b m : Nat} (v : Nat) (h : b + m ≤ ea ∨ ea + n ≤ b) :
    (s.stored ea n v).dmemValue b m = s.dmemValue b m :=
  (State.dmemValue_advance b m).trans (s.dmemValue_dmemPutBytes_outside v h)

theorem State.storeNext_of_inside {ea : Half} {n : Nat} (h : ea.toNat + n ≤ s.params.dmemBytes) (v : Nat) :
    s.storeNext ea n v = .next (s.stored ea.toNat n v) := by
  rcases s.storeNext_cases ea n v with ⟨-, e⟩ | ⟨hout, -⟩
  · exact e
  · omega

/-- STW in bounds stores the register's value: a wide register holds a W-bit pattern. -/
theorem exec_stw_of_inside (d : WReg) (h : (s.effAddr a simm).toNat + s.params.wideBytes ≤ s.params.dmemBytes) :
    exec (.stw d a simm) s = .next (s.stored (s.effAddr a simm).toNat s.params.wideBytes (s.readW d).toNat) := by
  have huval : uval s.params (s.readW d) = (s.readW d).toNat := Nat.mod_eq_of_lt (s.readW_lt d)
  rw [← huval]
  exact State.storeNext_of_inside h _

theorem exec_sts_of_inside (d : SReg) (h : (s.effAddr a simm).toNat + 2 ≤ s.params.dmemBytes) :
    exec (.sts d a simm) s = .next (s.stored (s.effAddr a simm).toNat 2 (s.readS d).toNat) :=
  State.storeNext_of_inside h _

/-- LDW in bounds reads the access's value whole: it fits the register. -/
theorem exec_ldw_of_inside (hp : s.params.legal = true) (d : WReg)
    (h : (s.effAddr a simm).toNat + s.params.wideBytes ≤ s.params.dmemBytes) :
    ∃ u, exec (.ldw d a simm) s = .next u ∧
      (u.readW d).toNat = s.dmemValue (s.effAddr a simm).toNat s.params.wideBytes := by
  rcases execLdw_cases s d a simm with ⟨-, e⟩ | ⟨hout, -⟩
  · refine ⟨_, e, ?_⟩
    rw [State.readW_advance, State.readW_writeW, if_pos rfl]
    obtain ⟨-, -, hW⟩ := Params.legal_wideBytes hp
    have hlt := s.dmemValue_lt (s.effAddr a simm).toNat s.params.wideBytes
    rw [Params.pow_wideBytes hp] at hlt
    exact toNat_truncW_ofNat hW hlt
  · omega

theorem exec_lds_of_inside (d : SReg) (h : (s.effAddr a simm).toNat + 2 ≤ s.params.dmemBytes) :
    ∃ u, exec (.lds d a simm) s = .next u ∧
      u.readS d = if d = 0 then 0 else BitVec.ofNat 16 (s.dmemValue (s.effAddr a simm).toNat 2) := by
  rcases execLds_cases s d a simm with ⟨-, e⟩ | ⟨hout, -⟩
  · refine ⟨_, e, ?_⟩
    rw [State.readS_advance, State.readS_writeS, if_pos rfl]
    rfl
  · omega

/-! ### A load after a store -/

theorem State.effAddr_eq_add (s : State) (a : SReg) (simm : Half) : s.effAddr a simm = s.readS a + simm := by
  rw [State.effAddr, BitVec.ofInt_add, BitVec.ofInt_toInt, BitVec.ofInt_natCast, BitVec.ofNat_toNat,
    BitVec.setWidth_eq]

/-- The halfword after one that ends below 2^16 is reached without wrapping. -/
theorem State.effAddr_add_two (h : (s.effAddr a simm).toNat + 2 < 2 ^ 16) :
    (s.effAddr a (simm + 2)).toNat = (s.effAddr a simm).toNat + 2 := by
  have hnext : s.effAddr a (simm + 2) = s.effAddr a simm + 2 := by
    rw [State.effAddr_eq_add, State.effAddr_eq_add, BitVec.add_assoc]
  rw [hnext, BitVec.toNat_add]
  exact Nat.mod_eq_of_lt h

/-- LDS reads the low half of what a wider access at the same address reads. -/
theorem ofNat_dmemValue_two (s : State) (b : Nat) {n : Nat} (h : 2 ≤ n) :
    BitVec.ofNat 16 (s.dmemValue b 2) = BitVec.ofNat 16 (s.dmemValue b n) := by
  rw [← s.dmemValue_mod_of_le b h]
  exact BitVec.eq_of_toNat_eq (by simp)

theorem exec_ldw_stored (hp : s.params.legal = true) (d : WReg) (b n v : Nat)
    (h : (s.effAddr a simm).toNat + s.params.wideBytes ≤ s.params.dmemBytes) :
    ∃ u, exec (.ldw d a simm) (s.stored b n v) = .next u ∧
      (u.readW d).toNat = (s.stored b n v).dmemValue (s.effAddr a simm).toNat s.params.wideBytes := by
  simpa using exec_ldw_of_inside (s := s.stored b n v) (by simpa using hp) d (by simpa using h)

theorem exec_lds_stored (d : SReg) (b n v : Nat) (h : (s.effAddr a simm).toNat + 2 ≤ s.params.dmemBytes) :
    ∃ u, exec (.lds d a simm) (s.stored b n v) = .next u ∧
      u.readS d = if d = 0 then 0 else BitVec.ofNat 16 ((s.stored b n v).dmemValue (s.effAddr a simm).toNat 2) := by
  simpa using exec_lds_of_inside (s := s.stored b n v) d (by simpa using h)

theorem load_after_stw (hp : s.params.legal = true) (d d' : Fin 8)
    (h : (s.effAddr a simm).toNat + s.params.wideBytes ≤ s.params.dmemBytes) :
    ∃ t u v, exec (.stw d a simm) s = .next t ∧
      exec (.ldw d' a simm) t = .next u ∧ u.readW d' = s.readW d ∧
      exec (.lds d' a simm) t = .next v ∧ v.readS d' = if d' = 0 then 0 else (s.readW d).setWidth 16 := by
  obtain ⟨-, hbytes, -⟩ := Params.legal_wideBytes hp
  obtain ⟨u, hldw, hu⟩ := exec_ldw_stored hp d' (s.effAddr a simm).toNat s.params.wideBytes (s.readW d).toNat h
  obtain ⟨v, hlds, hv⟩ := exec_lds_stored (s := s) (a := a) (simm := simm) d'
    (s.effAddr a simm).toNat s.params.wideBytes (s.readW d).toNat (by omega)
  have hstored := s.stored_dmemValue (s.effAddr a simm).toNat s.params.wideBytes (s.readW d).toNat
  rw [Params.pow_wideBytes hp, Nat.mod_eq_of_lt (s.readW_lt d)] at hstored
  rw [ofNat_dmemValue_two _ _ hbytes, hstored] at hv
  exact ⟨_, u, v, exec_stw_of_inside d h, hldw, BitVec.eq_of_toNat_eq (hu.trans hstored), hlds, hv⟩

theorem lds_after_sts (d d' : SReg) (h : (s.effAddr a simm).toNat + 2 ≤ s.params.dmemBytes) :
    ∃ t u, exec (.sts d a simm) s = .next t ∧
      exec (.lds d' a simm) t = .next u ∧ u.readS d' = if d' = 0 then 0 else s.readS d := by
  obtain ⟨u, hlds, hu⟩ := exec_lds_stored d' (s.effAddr a simm).toNat 2 (s.readS d).toNat h
  rw [State.stored_dmemValue, Nat.mod_eq_of_lt (b := 256 ^ 2) (s.readS d).isLt, BitVec.ofNat_toNat,
    BitVec.setWidth_eq] at hu
  exact ⟨_, u, exec_sts_of_inside d h, hlds, hu⟩

/-- Two halves stored side by side are one value of four bytes, the lower address less significant (R74). -/
theorem State.stored_stored_dmemValue (s : State) (ea : Nat) (lo hi : Half) :
    ((s.stored ea 2 lo.toNat).stored (ea + 2) 2 hi.toNat).dmemValue ea 4 = lo.toNat + 2 ^ 16 * hi.toNat := by
  rw [State.dmemValue_add _ ea 2 2, State.stored_dmemValue_outside _ (by omega), State.stored_dmemValue,
    State.stored_dmemValue]
  omega

theorem ldw_after_two_sts (hp : s.params.legal = true) (lo hi : SReg) (d : WReg)
    (h4 : (s.effAddr a simm).toNat + 4 ≤ s.params.dmemBytes)
    (hw : (s.effAddr a simm).toNat + s.params.wideBytes ≤ s.params.dmemBytes) :
    ∃ t u v, exec (.sts lo a simm) s = .next t ∧ exec (.sts hi a (simm + 2)) t = .next u ∧
      exec (.ldw d a simm) u = .next v ∧
      (v.readW d).toNat % 2 ^ 32 = ((s.readS lo).toNat + 2 ^ 16 * (s.readS hi).toNat) % 2 ^ s.params.W := by
  obtain ⟨-, -, hdmem, -⟩ := Params.legal_sizes hp
  have hsecond := State.effAddr_add_two (s := s) (a := a) (simm := simm) (by omega)
  have hsts := exec_sts_of_inside (s := s.stored (s.effAddr a simm).toNat 2 (s.readS lo).toNat)
    (a := a) (simm := simm + 2) hi (by simp only [State.stored_effAddr, State.stored_params]; omega)
  rw [State.stored_effAddr, State.stored_readS, hsecond] at hsts
  obtain ⟨v, hldw, hv⟩ := exec_ldw_stored (s := s.stored (s.effAddr a simm).toNat 2 (s.readS lo).toNat)
    (a := a) (simm := simm) (by simpa using hp) d ((s.effAddr a simm).toNat + 2) 2 (s.readS hi).toNat (by simpa using hw)
  refine ⟨_, _, v, exec_sts_of_inside lo (by omega), hsts, hldw, ?_⟩
  rw [hv, State.stored_effAddr, State.stored_params, show 2 ^ 32 = 256 ^ 4 by norm_num, State.dmemValue_mod_comm,
    State.stored_stored_dmemValue, Params.pow_wideBytes hp]

/-- Settles O44: a store's bytes are a value that a load reads back, whole or in part. -/
theorem storeThenLoad : Obligations.StoreThenLoad :=
  ⟨fun _ d d' _ _ hp h => load_after_stw hp d d' h, fun _ d d' _ _ _ h => lds_after_sts d d' h,
    fun _ lo hi _ d _ hp h4 hw => ldw_after_two_sts hp lo hi d h4 hw⟩

end Sys2Proof.Machine
end

section
/-! SUPPORT. The register and memory windows of the host (20_memory.md R80 to R85): what each offset reaches, the lockout during a run, and
reads and writes while idle. O51, O54 and O55. -/

namespace Sys2Proof.Machine

variable {s : State} {p : Params} {off : BitVec 20}

/-! ### What an offset reaches -/

theorem toNat_offset {a : Nat} (h : a < 2 ^ 20) : (BitVec.ofNat 20 a).toNat = a := Nat.mod_eq_of_lt h

/-- The control registers end below 0x40 (R80). -/
theorem windowTarget_ne_control (h : 0x40 ≤ off.toNat) (r : ControlReg) : windowTarget p off ≠ .control r := by
  unfold windowTarget
  rw [if_neg (by omega)]
  split_ifs <;> nofun

theorem windowTarget_scalar (p : Params) (i : SReg) :
    windowTarget p (BitVec.ofNat 20 (0x40 + 4 * i.val)) = .scalar i := by
  have hi := i.isLt
  simp only [windowTarget, toNat_offset (show 0x40 + 4 * i.val < 2 ^ 20 by omega)]
  rw [if_neg (by omega), if_pos (by omega)]
  exact congrArg _ (Fin.ext (by simp only [windowReg]; omega))

theorem windowTarget_wide (p : Params) (i : WReg) (j : Fin 4) :
    windowTarget p (BitVec.ofNat 20 (0x100 + 16 * i.val + 4 * j.val)) = .wide i j := by
  have hi := i.isLt
  have hj := j.isLt
  simp only [windowTarget, toNat_offset (show 0x100 + 16 * i.val + 4 * j.val < 2 ^ 20 by omega)]
  rw [if_neg (by omega), if_neg (by omega), if_neg (by omega), if_pos (by omega)]
  exact congrArg₂ _ (Fin.ext (by simp only [windowReg]; omega)) (Fin.ext (by dsimp only; omega))

/-- The IMEM window reaches word `k` if there is one, and nothing beyond (R83). -/
theorem windowTarget_imem (p : Params) {k : Nat} (h : k < 0x10000) :
    windowTarget p (BitVec.ofNat 20 (0x40000 + 4 * k)) = if k < p.imemWords then .imem k else .reserved := by
  have hword : ((0x40000 + 4 * k) / 4 * 4 - 0x40000) / 4 = k := by omega
  simp only [windowTarget, toNat_offset (show 0x40000 + 4 * k < 2 ^ 20 by omega), hword]
  rw [if_neg (by omega), if_neg (by omega), if_neg (by omega), if_neg (by omega),
    if_neg (by omega), if_pos (by omega)]

/-- The DMEM window reaches the four bytes at `4 * k` if there are such, and nothing beyond (R84). -/
theorem windowTarget_dmem (p : Params) {k : Nat} (h : k < 0x4000) :
    windowTarget p (BitVec.ofNat 20 (0x80000 + 4 * k)) = if 4 * k < p.dmemBytes then .dmem (4 * k) else .reserved := by
  have haddr : (0x80000 + 4 * k) / 4 * 4 - 0x80000 = 4 * k := by omega
  simp only [windowTarget, toNat_offset (show 0x80000 + 4 * k < 2 ^ 20 by omega), haddr]
  rw [if_neg (by omega), if_neg (by omega), if_neg (by omega), if_neg (by omega),
    if_neg (by omega), if_neg (by omega), if_pos (by omega)]

/-! ### The lockout during a run -/

/-- Settles O51: no window reaches a control register, and everything else a run hides and protects. -/
theorem windowsLockedWhileBusy : Obligations.WindowsLockedWhileBusy := by
  intro s off data hbusy hoff
  unfold State.hostRead State.hostWrite
  cases htarget : windowTarget s.params off with
  | control r => exact absurd htarget (windowTarget_ne_control hoff r)
  | scalar | wide | imem | dmem => exact ⟨State.whenIdle_of_busy hbusy _, State.writeIdle_of_busy hbusy _⟩
  | reserved => exact ⟨rfl, rfl⟩

/-! ### Accesses while idle -/

theorem State.hostRead_scalar {i : SReg} (hidle : s.busy = false) (h : windowTarget s.params off = .scalar i) :
    s.hostRead off = (s.readS i).zeroExtend 32 := by
  simp [State.hostRead, h, State.whenIdle_of_idle hidle]

theorem State.hostWrite_scalar {i : SReg} (hidle : s.busy = false) (h : windowTarget s.params off = .scalar i)
    (data : Word) : s.hostWrite off data = s.writeS i (data.setWidth 16) := by
  simp [State.hostWrite, h, State.writeIdle_of_idle hidle]

theorem State.hostRead_wide {i : WReg} {j : Fin 4} (hidle : s.busy = false)
    (h : windowTarget s.params off = .wide i j) :
    s.hostRead off = BitVec.ofNat 32 ((s.readW i).toNat / 2 ^ (32 * j.val)) := by
  simp [State.hostRead, h, State.whenIdle_of_idle hidle]

theorem State.hostWrite_wide {i : WReg} {j : Fin 4} (hidle : s.busy = false)
    (h : windowTarget s.params off = .wide i j) (data : Word) :
    s.hostWrite off data = s.writeW i (replaceWideWord (s.readW i) j.val data) := by
  simp [State.hostWrite, h, State.writeIdle_of_idle hidle]

theorem State.hostRead_imem {k : Nat} (hidle : s.busy = false) (h : windowTarget s.params off = .imem k) :
    s.hostRead off = s.imemWord k := by
  simp [State.hostRead, h, State.whenIdle_of_idle hidle]

theorem State.hostWrite_imem {k : Nat} (hidle : s.busy = false) (h : windowTarget s.params off = .imem k)
    (data : Word) : s.hostWrite off data = s.imemPut k data := by
  simp [State.hostWrite, h, State.writeIdle_of_idle hidle]

theorem State.hostRead_dmem {a : Nat} (hidle : s.busy = false) (h : windowTarget s.params off = .dmem a) :
    (s.hostRead off).toNat = s.dmemValue a 4 := by
  have hread : s.hostRead off = BitVec.ofNat 32 (s.dmemValue a 4) := by
    simp [State.hostRead, h, State.whenIdle_of_idle hidle, State.dmemValue]
  rw [hread]
  exact Nat.mod_eq_of_lt (s.dmemValue_lt a 4)

theorem State.hostWrite_dmem {a : Nat} (hidle : s.busy = false) (h : windowTarget s.params off = .dmem a)
    (data : Word) : s.hostWrite off data = s.dmemPutBytes a (valueBytes 4 data.toNat) := by
  simp [State.hostWrite, h, State.writeIdle_of_idle hidle]

/-! ### The register windows -/

theorem State.writeS_frame (s : State) (i : SReg) (v : Half) :
    s.writeS i v = { s with scalar := (s.writeS i v).scalar } := by
  unfold State.writeS
  split <;> rfl

/-- S0 discards the write, and every other register keeps its value (R81). -/
theorem State.readS_writeS_eq_ite (s : State) (i r : SReg) (v : Half) :
    (s.writeS i v).readS r = if r = i ∧ i ≠ 0 then v else s.readS r := by
  rw [State.readS_writeS]
  by_cases hr : r = 0
  · subst hr
    rw [if_pos rfl, if_neg (fun ⟨hi, hne⟩ => hne hi.symm), State.readS_zero]
  · by_cases hi : r = i
    · subst hi
      rw [if_neg hr, if_pos rfl, if_pos ⟨rfl, hr⟩]
    · rw [if_neg hr, if_neg hi, if_neg (fun h => hi h.1)]

theorem getLsbD_truncW (p : Params) (x : Wide) (k : Nat) :
    (truncW p x).getLsbD k = (decide (k < p.W) && x.getLsbD k) := by
  rw [truncW, BitVec.getLsbD_ofNat, Nat.testBit_mod_two_pow, BitVec.testBit_toNat]
  by_cases hk : k < 128
  · simp only [hk, decide_true, Bool.true_and]
  · rw [BitVec.getLsbD_of_ge x k (by omega)]
    simp only [Bool.and_false]

/-- Bit `k` of the byte at index `b` of a number. -/
theorem getLsbD_byte (v b k : Nat) (hk : k < 8) :
    (BitVec.ofNat 8 (v / 2 ^ (8 * b))).getLsbD k = v.testBit (8 * b + k) := by
  rw [BitVec.getLsbD_ofNat, Nat.testBit_div_two_pow, Nat.add_comm k]
  simp only [hk, decide_true, Bool.true_and]

theorem getLsbD_wideByte (x : Wide) (b k : Nat) (hk : k < 8) :
    (wideByte x b).getLsbD k = x.getLsbD (8 * b + k) := by
  rw [wideByte, getLsbD_byte _ _ _ hk, BitVec.testBit_toNat]

/-- A write of word `j` replaces bits `32j` to `32j + 31` and no others (R82). -/
theorem getLsbD_replaceWideWord (x : Wide) (j k : Nat) (data : Word) (hk : k < 128) :
    (replaceWideWord x j data).getLsbD k =
      if 32 * j ≤ k ∧ k < 32 * j + 32 then data.getLsbD (k - 32 * j) else x.getLsbD k := by
  have hcell : replaceWideWord x j data =
      BitVec.ofNat 128 (2 ^ (32 * j) * (2 ^ 32 * (x.toNat / 2 ^ (32 * j + 32)) + data.toNat) + x.toNat % 2 ^ (32 * j)) := by
    rw [replaceWideWord]
    congr 1
    rw [Nat.pow_add]
    ring
  rw [hcell, BitVec.getLsbD_ofNat, Nat.testBit_two_pow_mul_add _ (Nat.mod_lt _ (by positivity)),
    Nat.testBit_two_pow_mul_add _ data.isLt]
  simp only [hk, decide_true, Bool.true_and, BitVec.testBit_toNat, Nat.testBit_mod_two_pow, Nat.testBit_div_two_pow]
  rcases lt_or_ge k (32 * j) with hlo | hlo
  · rw [if_pos hlo, if_neg (by omega), decide_eq_true hlo, Bool.true_and]
  · rcases lt_or_ge k (32 * j + 32) with hhi | hhi
    · rw [if_neg (by omega), if_pos (by omega), if_pos ⟨hlo, hhi⟩]
    · rw [if_neg (by omega), if_neg (by omega), if_neg (by omega), show k - 32 * j - 32 + (32 * j + 32) = k by omega]

/-- Bytes at index `W/8` and above are dropped (R82). -/
theorem wideByte_truncW (hp : p.legal = true) (x : Wide) (b : Nat) :
    wideByte (truncW p x) b = if p.wideBytes ≤ b then 0 else wideByte x b := by
  obtain ⟨hW, -⟩ := Params.legal_wideBytes hp
  apply BitVec.eq_of_getLsbD_eq
  intro k hk
  rw [getLsbD_wideByte _ _ _ hk, getLsbD_truncW]
  split
  next hb =>
    rw [decide_eq_false (by omega), Bool.false_and, BitVec.ofNat_eq_ofNat, BitVec.getLsbD_zero]
  next hb => rw [decide_eq_true (by omega), Bool.true_and, getLsbD_wideByte _ _ _ hk]

theorem wideByte_replaceWideWord (x : Wide) (j b : Nat) (data : Word) (hb : b < 16) :
    wideByte (replaceWideWord x j data) b =
      if 4 * j ≤ b ∧ b < 4 * j + 4 then BitVec.ofNat 8 (data.toNat / 2 ^ (8 * (b - 4 * j))) else wideByte x b := by
  apply BitVec.eq_of_getLsbD_eq
  intro k hk
  rw [getLsbD_wideByte _ _ _ hk, getLsbD_replaceWideWord _ _ _ _ (by omega)]
  split
  next hbit =>
    have hpos : 8 * b + k - 32 * j = 8 * (b - 4 * j) + k := by omega
    rw [if_pos (by omega), getLsbD_byte _ _ _ hk, BitVec.testBit_toNat, hpos]
  next hbit => rw [if_neg (by omega), getLsbD_wideByte _ _ _ hk]

/-- Settles O54: each window writes its own register alone, and a wide register byte by byte. -/
theorem registerWindows : Obligations.RegisterWindows := by
  intro s i j data hp hidle sOff wOff t u
  have hscalar : windowTarget s.params sOff = .scalar i := windowTarget_scalar s.params i
  have hwide : windowTarget s.params wOff = .wide i j := windowTarget_wide s.params i j
  have ht : t = s.writeS i (data.setWidth 16) := State.hostWrite_scalar hidle hscalar data
  have hu : u = s.writeW i (replaceWideWord (s.readW i) j.val data) := State.hostWrite_wide hidle hwide data
  rw [ht, hu]
  refine ⟨State.hostRead_scalar hidle hscalar, s.writeS_frame i _, fun r => s.readS_writeS_eq_ite i r _,
    State.hostRead_wide hidle hwide, rfl, fun r hr => ?_, fun b hb => ?_⟩
  · rw [State.readW_writeW, if_neg hr]
  · rw [State.readW_writeW, if_pos rfl, wideByte_truncW hp, wideByte_replaceWideWord _ _ _ _ hb]

/-! ### The memory windows -/

theorem State.imemWord_imemPut (s : State) (k m : Nat) (w : Word) :
    (s.imemPut k w).imemWord m = if m = k then w else s.imemWord m := by
  unfold State.imemWord
  split
  next h => rw [h, State.imemPut_imem, Memory.find_put_same]; rfl
  next h => rw [State.imemPut_imem, Memory.find_put_other _ _ _ _ h]

theorem imemWindow_inside (hidle : s.busy = false) {k : Nat} (h : windowTarget s.params off = .imem k) (data : Word) :
    s.hostRead off = s.imemWord k ∧ (s.hostWrite off data).hostRead off = data ∧
      s.hostWrite off data = { s with imem := (s.hostWrite off data).imem } ∧
      ∀ m, m ≠ k → (s.hostWrite off data).imemWord m = s.imemWord m := by
  rw [State.hostWrite_imem hidle h]
  refine ⟨State.hostRead_imem hidle h, ?_, rfl, fun m hm => ?_⟩
  · rw [State.hostRead_imem (s := s.imemPut k data) hidle h, State.imemWord_imemPut, if_pos rfl]
  · rw [State.imemWord_imemPut, if_neg hm]

theorem dmemWindow_inside (hidle : s.busy = false) {a : Nat} (h : windowTarget s.params off = .dmem a) (data : Word) :
    (∀ j < 4, BitVec.ofNat 8 ((s.hostRead off).toNat / 2 ^ (8 * j)) = s.dmemByte (a + j)) ∧
      (s.hostWrite off data).hostRead off = data ∧
      s.hostWrite off data = { s with dmem := (s.hostWrite off data).dmem } ∧
      (∀ j < 4, (s.hostWrite off data).dmemByte (a + j) = BitVec.ofNat 8 (data.toNat / 2 ^ (8 * j))) ∧
      ∀ b, b < a ∨ a + 4 ≤ b → (s.hostWrite off data).dmemByte b = s.dmemByte b := by
  rw [State.hostWrite_dmem hidle h, State.hostRead_dmem hidle h]
  refine ⟨fun j hj => s.byte_dmemValue hj, ?_, s.dmemPutBytes_frame a _,
    fun j hj => s.dmemByte_dmemPutBytes_value a _ hj, fun b hb => ?_⟩
  · apply BitVec.eq_of_toNat_eq
    rw [State.hostRead_dmem (by simpa using hidle) (by simpa using h), State.dmemValue_dmemPutBytes]
    exact Nat.mod_eq_of_lt data.isLt
  · exact s.dmemByte_dmemPutBytes_outside a _ b (by rwa [length_valueBytes])

/-- Settles O55: inside a memory the window reaches its words, and beyond it reserved offsets. -/
theorem memoryWindows : Obligations.MemoryWindows := by
  intro s k data hp hidle iOff dOff t u
  obtain ⟨-, himem, hdmem, -⟩ := Params.legal_sizes hp
  refine ⟨fun hk => ?_, fun hout hk => ?_, fun hk => ?_, fun hout hk => ?_⟩
  · exact imemWindow_inside hidle ((windowTarget_imem s.params (by omega)).trans (if_pos hk)) data
  · have hres : windowTarget s.params iOff = .reserved := (windowTarget_imem s.params hk).trans (if_neg (by omega))
    exact ⟨State.hostRead_of_reserved hres, State.hostWrite_of_reserved hres data⟩
  · exact dmemWindow_inside hidle ((windowTarget_dmem s.params (by omega)).trans (if_pos hk)) data
  · have hres : windowTarget s.params dOff = .reserved := (windowTarget_dmem s.params hk).trans (if_neg (by omega))
    exact ⟨State.hostRead_of_reserved hres, State.hostWrite_of_reserved hres data⟩

end Sys2Proof.Machine
end

section
/-! SUPPORT. The fields of an instruction word (30_encoding.md R91, R92): what each reads in a word built from fields, which mask selects it,
and which of them a row's format uses. -/

namespace Sys2Proof

open Laws

/-! ### The fields of a word built from fields -/

section FieldsWord

variable {op d a b imm : Nat}

theorem fieldD_fieldsWord (d : Fin 8) (ho : op < 64) (ha : a < 8) (hb : b < 8) (hi : imm < 65536) :
    fieldD (fieldsWord op d a b imm) = d := by
  apply Fin.ext
  simp only [fieldD, regField, fieldsWord_toNat _ _ _ _ _ ho d.isLt ha hb hi]
  omega

theorem fieldA_fieldsWord (a : Fin 8) (ho : op < 64) (hd : d < 8) (hb : b < 8) (hi : imm < 65536) :
    fieldA (fieldsWord op d a b imm) = a := by
  apply Fin.ext
  simp only [fieldA, regField, fieldsWord_toNat _ _ _ _ _ ho hd a.isLt hb hi]
  omega

theorem fieldB_fieldsWord (b : Fin 8) (ho : op < 64) (hd : d < 8) (ha : a < 8) (hi : imm < 65536) :
    fieldB (fieldsWord op d a b imm) = b := by
  apply Fin.ext
  simp only [fieldB, regField, fieldsWord_toNat _ _ _ _ _ ho hd ha b.isLt hi]
  omega

theorem fieldImm_fieldsWord (imm : Half) (ho : op < 64) (hd : d < 8) (ha : a < 8) (hb : b < 8) :
    fieldImm (fieldsWord op d a b imm.toNat) = imm := by
  apply BitVec.eq_of_toNat_eq
  rw [fieldImm, bits, fieldsWord_toNat _ _ _ _ _ ho hd ha hb imm.isLt, BitVec.toNat_ofNat]
  omega

/-- SETL's index is the high byte of the immediate (R96). -/
theorem fieldIdx_fieldsWord (idx val : Byte) (ho : op < 64) (hd : d < 8) (ha : a < 8) (hb : b < 8) :
    fieldIdx (fieldsWord op d a b (2 ^ 8 * idx.toNat + val.toNat)) = idx := by
  apply BitVec.eq_of_toNat_eq
  rw [fieldIdx, bits, fieldsWord_toNat _ _ _ _ _ ho hd ha hb (setl_imm_lt _ _), BitVec.toNat_ofNat]
  omega

/-- SETL's value is the low byte of the immediate (R96). -/
theorem fieldVal_fieldsWord (idx val : Byte) (ho : op < 64) (hd : d < 8) (ha : a < 8) (hb : b < 8) :
    fieldVal (fieldsWord op d a b (2 ^ 8 * idx.toNat + val.toNat)) = val := by
  apply BitVec.eq_of_toNat_eq
  rw [fieldVal, bits, fieldsWord_toNat _ _ _ _ _ ho hd ha hb (setl_imm_lt _ _), BitVec.toNat_ofNat]
  omega

end FieldsWord

/-- SETL's two bytes together are the immediate (R96). -/
theorem fieldIdx_fieldVal (w : Word) : 2 ^ 8 * (fieldIdx w).toNat + (fieldVal w).toNat = (fieldImm w).toNat := by
  simp only [fieldIdx, fieldVal, fieldImm, bits, BitVec.toNat_ofNat]
  omega

/-! ### Masks -/

/-- The word with ones in bits `hi` down to `lo`. -/
def fieldMask (hi lo : Nat) : Word := BitVec.ofNat 32 ((2 ^ (hi + 1 - lo) - 1) <<< lo)

theorem getLsbD_fieldMask {hi lo k : Nat} (hk : k < 32) :
    (fieldMask hi lo).getLsbD k = (decide (lo ≤ k) && decide (k ≤ hi)) := by
  simp only [fieldMask, BitVec.getLsbD_ofNat, hk, Nat.testBit_shiftLeft, Nat.testBit_two_pow_sub_one, decide_true, Bool.true_and]
  grind

theorem testBit_bits (w : Word) (hi lo k : Nat) :
    (bits w hi lo).testBit k = (decide (k < hi + 1 - lo) && w.getLsbD (lo + k)) := by
  rw [bits, Nat.testBit_mod_two_pow, Nat.testBit_div_two_pow, BitVec.testBit_toNat, Nat.add_comm k]

/-- Two words agree in a field exactly when the field's mask selects the same bits of both. -/
theorem bits_eq_iff_and_fieldMask {hi lo : Nat} (hhi : hi < 32) (w v : Word) :
    bits w hi lo = bits v hi lo ↔ w &&& fieldMask hi lo = v &&& fieldMask hi lo := by
  constructor
  · intro h
    refine BitVec.eq_of_getLsbD_eq fun k hk => ?_
    have hbit := congrArg (·.testBit (k - lo)) h
    simp only [testBit_bits, BitVec.getLsbD_and, getLsbD_fieldMask hk] at hbit ⊢
    by_cases hlo : lo ≤ k
    · rw [Nat.add_sub_of_le hlo] at hbit
      grind
    · simp [hlo]
  · intro h
    refine Nat.eq_of_testBit_eq fun k => ?_
    have hbit := congrArg (·.getLsbD (lo + k)) h
    by_cases hk : k < hi + 1 - lo
    · simp only [BitVec.getLsbD_and, getLsbD_fieldMask (show lo + k < 32 by omega)] at hbit
      simp only [testBit_bits]
      grind
    · simp [testBit_bits, hk]

/-- The mask of the opcode field (R92). -/
def opMask : Word := fieldMask 31 26

theorem fieldOp_eq_iff_and_opMask (w v : Word) : fieldOp w = fieldOp v ↔ w &&& opMask = v &&& opMask :=
  bits_eq_iff_and_fieldMask (by decide) w v

/-! ### Fields that must be 0 -/

/-- Every field listed is 0 in the word (R93 to R95). -/
def FieldsZero (zs : List (Nat × Nat)) (w : Word) : Prop := ∀ f ∈ zs, bits w f.1 f.2 = 0

variable {zs : List (Nat × Nat)} {w : Word}

theorem withZeros_of_zero (h : FieldsZero zs w) (i : Instr) : withZeros w zs i = .ok i :=
  if_pos (by simpa [FieldsZero] using h)

theorem withZeros_of_not_zero (h : ¬FieldsZero zs w) (i : Instr) : withZeros w zs i = .error .nonzeroField :=
  if_neg (by simpa [FieldsZero] using h)

/-- The mask of the fields that must be 0. -/
def zerosMask : List (Nat × Nat) → Word
  | [] => 0#32
  | f :: zs => fieldMask f.1 f.2 ||| zerosMask zs

theorem fieldsZero_iff_and_zerosMask (hzs : ∀ f ∈ zs, f.1 < 32) (w : Word) : FieldsZero zs w ↔ w &&& zerosMask zs = 0#32 := by
  induction zs with
  | nil => simp [FieldsZero, zerosMask]
  | cons f zs ih =>
    obtain ⟨hf, hzs⟩ := List.forall_mem_cons.mp hzs
    have hhead : bits w f.1 f.2 = 0 ↔ w &&& fieldMask f.1 f.2 = 0#32 := by
      simpa [bits] using bits_eq_iff_and_fieldMask hf w 0
    rw [FieldsZero, List.forall_mem_cons, hhead, zerosMask, BitVec.and_or_distrib_left, BitVec.or_eq_zero_iff]
    exact and_congr_right fun _ => ih hzs

/-! ### Formats -/

/-- Which fields besides the opcode a row of R98 uses: the R and the I format of R91, by the fields that R95 wants to be 0. -/
inductive Format where
  | plain | imm | dab | da | ab | a | dImm | daImm

/-- The fields that R93 to R95 want to be 0. -/
def Format.zeros : Format → List (Nat × Nat)
  | .plain => [(25, 0)]
  | .imm => [(25, 16)]
  | .dab => [(16, 0)]
  | .da => [(19, 0)]
  | .ab => [(25, 23), (16, 0)]
  | .a => [(25, 23), (19, 0)]
  | .dImm => [(22, 16)]
  | .daImm => [(19, 16)]

/-- The mask that R98 gives the rows of a format. -/
def Format.mask : Format → Word
  | .plain => 0xFFFFFFFF#32
  | .imm => 0xFFFF0000#32
  | .dab => 0xFC01FFFF#32
  | .da => 0xFC0FFFFF#32
  | .ab => 0xFF81FFFF#32
  | .a => 0xFF8FFFFF#32
  | .dImm => 0xFC7F0000#32
  | .daImm => 0xFC0F0000#32

/-- The word that has the opcode of `w` and the fields of `w` that the format uses, and 0 elsewhere. -/
def Format.used (w : Word) : Format → Word
  | .plain => fieldsWord (fieldOp w) 0 0 0 0
  | .imm => fieldsWord (fieldOp w) 0 0 0 (fieldImm w).toNat
  | .dab => fieldsWord (fieldOp w) (fieldD w) (fieldA w) (fieldB w) 0
  | .da => fieldsWord (fieldOp w) (fieldD w) (fieldA w) 0 0
  | .ab => fieldsWord (fieldOp w) 0 (fieldA w) (fieldB w) 0
  | .a => fieldsWord (fieldOp w) 0 (fieldA w) 0 0
  | .dImm => fieldsWord (fieldOp w) (fieldD w) 0 0 (fieldImm w).toNat
  | .daImm => fieldsWord (fieldOp w) (fieldD w) (fieldA w) 0 (fieldImm w).toNat

/-- Every bit of a word is in a field that the format uses or in one that must be 0. -/
theorem Format.used_eq_iff (f : Format) (w : Word) : f.used w = w ↔ FieldsZero f.zeros w := by
  rw [← BitVec.toNat_inj]
  cases f
  all_goals
    simp [Format.used, Format.zeros, FieldsZero, fieldsWord, fieldOp, fieldD, fieldA, fieldB, fieldImm, regField, bits]
    omega

/-- A mask of R98 takes in the opcode and the fields that must be 0, and nothing else. -/
theorem Format.mask_eq (f : Format) : f.mask = opMask ||| zerosMask f.zeros := by cases f <;> decide

theorem Format.opMask_and_zerosMask (f : Format) : opMask &&& zerosMask f.zeros = 0#32 := by cases f <;> decide

theorem Format.fieldsZero_iff (f : Format) (w : Word) : FieldsZero f.zeros w ↔ w &&& zerosMask f.zeros = 0#32 :=
  fieldsZero_iff_and_zerosMask (by cases f <;> decide) w

/-- The format of the instruction's row in R98. -/
def Instr.format : Instr → Format
  | .halt | .nop => .plain
  | .brk _ | .bra _ | .beq _ | .bne _ | .blt _ | .bge _ | .bgt _ | .ble _ => .imm
  | .add _ _ _ | .sub _ _ _ | .mul _ _ _ | .div _ _ _ | .fmul _ _ _ | .fdiv _ _ _ | .sadd _ _ _ | .ssub _ _ _ => .dab
  | .neg _ _ | .abs _ _ | .isqrt _ _ | .fsqrt _ _ | .mov _ _ | .wfroms _ _ => .da
  | .cmp _ _ | .scmp _ _ => .ab
  | .tst _ | .stst _ | .jr _ => .a
  | .ldi _ _ | .setl _ _ _ | .sli _ _ | .jal _ _ => .dImm
  | .lshl _ _ _ | .lshr _ _ _ | .lsra _ _ _ | .shl _ _ _ | .asr _ _ _ | .ldw _ _ _ | .stw _ _ _ | .lds _ _ _ | .sts _ _ _
  | .saddi _ _ _ | .sshl _ _ _ | .sasr _ _ _ => .daImm

end Sys2Proof
end

section
/-! SUPPORT. The rows of the opcode table (30_encoding.md R98, R104): a row spells the words that have its opcode and zeros where its format
wants them. The statement that no word is spelled by two rows (O4) follows. -/

namespace Sys2Proof

variable {r : OpcodeRow} {w : Word}

theorem OpcodeRow.spells_iff : r.spells w = true ↔ w &&& r.mask = r.pattern := by simp [OpcodeRow.spells]

/-- Every row's mask takes in the opcode field, and its pattern has no bit outside that field. -/
theorem opcodeTable_opMask : ∀ r ∈ opcodeTable, r.mask &&& opMask = opMask ∧ r.pattern &&& opMask = r.pattern := by decide

theorem opcodeTable_opcodes_nodup : (opcodeTable.map fun r => fieldOp r.pattern).Nodup := by decide

theorem OpcodeRow.fieldOp_of_spells (hr : r ∈ opcodeTable) (h : r.spells w = true) : fieldOp w = fieldOp r.pattern := by
  obtain ⟨hmask, -⟩ := opcodeTable_opMask r hr
  rw [fieldOp_eq_iff_and_opMask, ← OpcodeRow.spells_iff.mp h, BitVec.and_assoc, hmask]

/-- Settles O4: a word has the opcode of every row that spells it, and no two rows have one opcode. -/
theorem opcodeRowsDoNotOverlap : Obligations.OpcodeRowsDoNotOverlap := by
  intro r₁ h₁ r₂ h₂ w hw₁ hw₂
  exact List.inj_on_of_nodup_map opcodeTable_opcodes_nodup h₁ h₂
    ((OpcodeRow.fieldOp_of_spells h₁ hw₁).symm.trans (OpcodeRow.fieldOp_of_spells h₂ hw₂))

/-- Among the words with its opcode a row spells those that have zeros where its format wants them. -/
theorem OpcodeRow.spells_iff_fieldsZero {f : Format} (hr : r ∈ opcodeTable) (hmask : f.mask = r.mask)
    (hop : fieldOp w = fieldOp r.pattern) : r.spells w = true ↔ FieldsZero f.zeros w := by
  obtain ⟨-, hpat⟩ := opcodeTable_opMask r hr
  have hopbits : w &&& opMask = r.pattern := ((fieldOp_eq_iff_and_opMask w r.pattern).mp hop).trans hpat
  have hdisj : r.pattern &&& zerosMask f.zeros = 0#32 := by
    rw [← hpat, BitVec.and_assoc, f.opMask_and_zerosMask, BitVec.and_zero]
  rw [OpcodeRow.spells_iff, ← hmask, f.mask_eq, BitVec.and_or_distrib_left, hopbits, f.fieldsZero_iff]
  constructor
  · intro h
    simpa [BitVec.and_or_distrib_right, BitVec.and_assoc, hdisj] using congrArg (· &&& zerosMask f.zeros) h
  · intro h
    rw [h, BitVec.or_zero]

/-- Every row's pattern is the word of an instruction of that row. -/
theorem exists_instr_of_row :
    ∀ r ∈ opcodeTable, ∃ i : Instr, i.mnemonic = r.mnemonic ∧ i.format.mask = r.mask ∧ encode i = r.pattern := by
  have hrows : ∀ r ∈ opcodeTable, (decodeFields r.pattern).toOption.any
      (fun i => i.mnemonic == r.mnemonic && i.format.mask == r.mask && encode i == r.pattern) = true := by decide
  intro r hr
  obtain ⟨i, -, hi⟩ := (Option.any_eq_true ..).mp (hrows r hr)
  exact ⟨i, by simpa [and_assoc] using hi⟩

end Sys2Proof
end

section
/-! SUPPORT. Said once: what the decoder reads from a word, and that it accepts the word exactly when the word is that instruction's
(30_encoding.md R99, R104). The statements about decoding and encoding (O1, O2, O3, O5) follow. -/

namespace Sys2Proof

open Laws

variable {N : Nat} {w : Word} {i : Instr} {r : OpcodeRow}

/-! ### What a word reads as -/

/-- `i` is the instruction of the word's opcode with the word's fields as operands; whether the other fields are 0 is still to be checked. -/
structure ReadsAs (w : Word) (i : Instr) : Prop where
  arm : decodeFields w = withZeros w i.format.zeros i
  used : encode i = i.format.used w

theorem ReadsAs.of_arm {zs : List (Nat × Nat)} (arm : decodeFields w = withZeros w zs i) (hzs : zs = i.format.zeros)
    (used : encode i = i.format.used w) : ReadsAs w i := ⟨hzs ▸ arm, used⟩

theorem ReadsAs.fieldsZero_iff (h : ReadsAs w i) : FieldsZero i.format.zeros w ↔ encode i = w := by
  rw [h.used, Format.used_eq_iff]

theorem ReadsAs.decodeFields_of_encode (h : ReadsAs w i) (hw : encode i = w) : decodeFields w = .ok i :=
  h.arm.trans (withZeros_of_zero (h.fieldsZero_iff.mpr hw) i)

theorem ReadsAs.decodeFields_of_ne (h : ReadsAs w i) (hw : encode i ≠ w) : decodeFields w = .error .nonzeroField :=
  h.arm.trans (withZeros_of_not_zero (fun hz => hw (h.fieldsZero_iff.mp hz)) i)

/-- A word with an instruction's opcode reads as an instruction of the same row, and as that very instruction where the word is its own: the
decoder's arm for each constructor. -/
theorem exists_readsAs_of_fieldOp (i : Instr) (hop : fieldOp w = fieldOp (encode i)) :
    ∃ j, ReadsAs w j ∧ j.mnemonic = i.mnemonic ∧ j.format = i.format ∧ (encode i = w → j = i) := by
  have harm := decodeFields.eq_1 w
  cases i
  all_goals
    rw [encode, fieldOp_fieldsWord _ _ _ _ _ (by omega) (by omega) (by omega) (by omega) (by omega)] at hop
    rw [hop] at harm
    refine ⟨_, .of_arm harm rfl ?_, rfl, rfl, ?_⟩
    · simp only [encode, Instr.format, Format.used, hop, fieldIdx_fieldVal]
    · rintro rfl
      simp (disch := omega) only [encode, fieldD_fieldsWord, fieldA_fieldsWord, fieldB_fieldsWord, fieldImm_fieldsWord,
        fieldIdx_fieldsWord, fieldVal_fieldsWord]

theorem readsAs_encode (i : Instr) : ReadsAs (encode i) i := by
  obtain ⟨j, hj, -, -, hji⟩ := exists_readsAs_of_fieldOp i rfl
  exact hji rfl ▸ hj

theorem decodeFields_encode (i : Instr) : decodeFields (encode i) = .ok i := (readsAs_encode i).decodeFields_of_encode rfl

/-- A word with a row's opcode reads as an instruction of the row, and the row spells the word exactly when it is that instruction's. -/
theorem exists_readsAs_of_row (hr : r ∈ opcodeTable) (hop : fieldOp w = fieldOp r.pattern) :
    ∃ i, ReadsAs w i ∧ i.mnemonic = r.mnemonic ∧ (r.spells w = true ↔ encode i = w) := by
  obtain ⟨k, hname, hmask, hword⟩ := exists_instr_of_row r hr
  obtain ⟨i, hi, hik, hformat, -⟩ := exists_readsAs_of_fieldOp k (hop.trans (congrArg fieldOp hword.symm))
  refine ⟨i, hi, hik.trans hname, ?_⟩
  rw [OpcodeRow.spells_iff_fieldsZero hr (hformat ▸ hmask) hop, hi.fieldsZero_iff]

/-- Case 1 of R99 is the decoder's answer for every opcode outside the table. -/
theorem decodeFields_reserved_or_row (w : Word) :
    decodeFields w = .error .reservedOpcode ∨ ∃ r ∈ opcodeTable, fieldOp w = fieldOp r.pattern := by
  suffices decodeFields w = .error .reservedOpcode ∨ fieldOp w ∈ opcodeTable.map fun r => fieldOp r.pattern by
    simpa [eq_comm] using this
  unfold decodeFields
  split
  case h_46 => exact .inl rfl
  all_goals
    rename_i hop
    rw [hop]
    exact .inr (by decide)

/-- The decoder's answer, but for SETL's index: a word of a row's opcode is the row's, or it has a bit that R93 to R95 want to be 0. -/
theorem decodeFields_cases (w : Word) :
    decodeFields w = .error .reservedOpcode ∨ decodeFields w = .error .nonzeroField ∨
      ∃ r ∈ opcodeTable, ∃ i, decodeFields w = .ok i ∧ encode i = w ∧ r.spells w = true := by
  rcases decodeFields_reserved_or_row w with h | ⟨r, hr, hop⟩
  · exact .inl h
  · obtain ⟨i, hi, -, hspells⟩ := exists_readsAs_of_row hr hop
    by_cases hw : encode i = w
    · exact .inr (.inr ⟨r, hr, i, hi.decodeFields_of_encode hw, hw, hspells.mpr hw⟩)
    · exact .inr (.inl (hi.decodeFields_of_ne hw))

theorem encode_of_decodeFields (h : decodeFields w = .ok i) : encode i = w := by
  rcases decodeFields_cases w with he | he | ⟨-, -, j, hj, hw, -⟩
  · cases h.symm.trans he
  · cases h.symm.trans he
  · cases h.symm.trans hj
    exact hw

/-! ### The check of SETL's index -/

theorem decode_of_ok (h : decodeFields w = .ok i) (hwf : i.wellFormed N = true) : decode N w = .ok i := by simp [decode, h, hwf]

theorem decode_of_not_wellFormed (h : decodeFields w = .ok i) (hwf : ¬i.wellFormed N = true) :
    decode N w = .error .limbIndex := by simp [decode, h, hwf]

theorem decode_of_error {e : Illegal} (h : decodeFields w = .error e) : decode N w = .error e := by simp [decode, h]

/-- The decoder's only further check is on the index of SETL (R99 case 3). -/
theorem decode_eq_ok_iff : decode N w = .ok i ↔ decodeFields w = .ok i ∧ i.wellFormed N = true := by
  constructor
  · intro h
    cases hf : decodeFields w with
    | error e => cases h.symm.trans (decode_of_error hf)
    | ok j =>
      by_cases hwf : j.wellFormed N = true
      · cases h.symm.trans (decode_of_ok hf hwf)
        exact ⟨rfl, hwf⟩
      · cases h.symm.trans (decode_of_not_wellFormed hf hwf)
  · rintro ⟨hf, hwf⟩
    exact decode_of_ok hf hwf

theorem wellFormed_iff_fieldIdx (h : decodeFields w = .ok i) :
    i.wellFormed N = true ↔ (i.mnemonic = "SETL" → (fieldIdx w).toNat < N) := by
  cases i with
  | setl d idx val =>
    have hidx : fieldIdx w = idx := by
      rw [← encode_of_decodeFields h, encode, fieldIdx_fieldsWord _ _ (by decide) d.isLt (by decide) (by decide)]
    simp [Instr.wellFormed, Instr.mnemonic, hidx]
  | _ => simp [Instr.wellFormed, Instr.mnemonic]

/-! ### The statements -/

/-- Settles O1: the word of an instruction reads as that instruction, and its other fields are 0. -/
theorem decodeEncodeRoundTrip : Obligations.DecodeEncodeRoundTrip :=
  fun _ i hwf => decode_of_ok (decodeFields_encode i) hwf

/-- Settles O2: every bit of a word that decodes is in a field that its instruction uses or in one that must be 0. -/
theorem encodeDecodeRoundTrip : Obligations.EncodeDecodeRoundTrip := by
  intro N w i h
  obtain ⟨hf, hwf⟩ := decode_eq_ok_iff.mp h
  exact ⟨encode_of_decodeFields hf, hwf⟩

theorem OpcodeRow.exists_decodeFields_of_spells (hr : r ∈ opcodeTable) (h : r.spells w = true) :
    ∃ i, decodeFields w = .ok i ∧ i.mnemonic = r.mnemonic := by
  obtain ⟨i, hi, hname, hspells⟩ := exists_readsAs_of_row hr (OpcodeRow.fieldOp_of_spells hr h)
  exact ⟨i, hi.decodeFields_of_encode (hspells.mp h), hname⟩

/-- Settles O3: a row's words read as the row's instruction, SETL's index is what is left to check, and a word that decodes is spelled by the
row of its opcode. -/
theorem decodeFollowsOpcodeTable : Obligations.DecodeFollowsOpcodeTable := by
  refine fun N w => ⟨fun r hr hspells hidx => ?_, fun r hr hspells hsetl hidx => ?_, fun hnone => ?_⟩
  · obtain ⟨i, hf, hname⟩ := OpcodeRow.exists_decodeFields_of_spells hr hspells
    exact ⟨i, decode_of_ok hf ((wellFormed_iff_fieldIdx hf).mpr (hname ▸ hidx)), hname⟩
  · obtain ⟨i, hf, hname⟩ := OpcodeRow.exists_decodeFields_of_spells hr hspells
    exact decode_of_not_wellFormed hf fun hwf => hidx.not_gt ((wellFormed_iff_fieldIdx hf).mp hwf (hname.trans hsetl))
  · rcases decodeFields_cases w with h | h | ⟨r, hr, -, -, -, hspells⟩
    · exact .inl (decode_of_error h)
    · exact .inr (decode_of_error h)
    · cases (hnone r hr).symm.trans hspells

/-- Settles O5: the legal words are those of their instructions (O1), and each illegal word is one of the three cases of R99. -/
theorem sampleWordsDecode : Obligations.SampleWordsDecode :=
  ⟨decodeEncodeRoundTrip 4 (.add 1 2 3) rfl, decodeEncodeRoundTrip 4 (.lds 3 4 0xFFFE#16) rfl,
    decodeEncodeRoundTrip 4 (.jal 7 4#16) rfl, decodeEncodeRoundTrip 4 (.setl 5 3 0x80#8) rfl,
    decode_of_error rfl, decode_of_error rfl, decode_of_not_wellFormed (i := .setl 1 4 0) rfl (by decide)⟩

end Sys2Proof

namespace Sys2Proof.Machine

/-- A pseudo-instruction alone assembles to the words of its expansion (R103). -/
theorem assemble_pseudo (p : Params) (q : Pseudo) : assemble p [.pseudo q] = some ((q.expand p).map encode) := by
  simp [assemble, assembleFrom, AsmItem.words]

/-- Settles O6: each expansion is a row of the table of R103. -/
theorem pseudoInstructionsExpand : Obligations.PseudoInstructionsExpand :=
  fun p _ d a b i o =>
    ⟨assemble_pseudo p (.from d a), assemble_pseudo p (.fromI d i), assemble_pseudo p (.clr d), assemble_pseudo p (.movs d a),
      assemble_pseudo p (.dec d), assemble_pseudo p (.call o), assemble_pseudo p .ret, assemble_pseudo p (.lt a b)⟩

end Sys2Proof.Machine
end

section
/-! SUPPORT. Numbers and their limbs (00_scope.md R10): the value of a list of limbs, the limbs of a number, and the same for a wide value. A
list of limbs is well formed when each of them is below the radix. -/

namespace Sys2Proof.Machine

variable {radix : Nat} {ls : List Nat} {p : Params}

/-! ### Lists of limbs -/

theorem limbsValue_eq_ofDigits (radix : Nat) (ls : List Nat) : limbsValue radix ls = Nat.ofDigits radix ls := by
  induction ls with
  | nil => rfl
  | cons l ls ih => simp [limbsValue, Nat.ofDigits_cons, ih]

theorem limbsValue_lt (hr : 1 < radix) (h : ∀ l ∈ ls, l < radix) : limbsValue radix ls < radix ^ ls.length := by
  rw [limbsValue_eq_ofDigits]
  exact Nat.ofDigits_lt_base_pow_length hr h

@[simp] theorem length_numberLimbs (radix k v : Nat) : (numberLimbs radix k v).length = k := by
  induction k generalizing v with
  | zero => rfl
  | succ k ih => rw [numberLimbs, List.length_cons, ih]

theorem getElem_numberLimbs (radix k v i : Nat) (h : i < (numberLimbs radix k v).length) :
    (numberLimbs radix k v)[i] = v / radix ^ i % radix := by
  induction k generalizing v i with
  | zero => cases h
  | succ k ih =>
    cases i with
    | zero => simp [numberLimbs]
    | succ i => simp only [numberLimbs, List.getElem_cons_succ, ih, Nat.div_div_eq_div_mul, Nat.pow_succ']

theorem numberLimbs_lt (hr : 0 < radix) (k v : Nat) : ∀ l ∈ numberLimbs radix k v, l < radix := by
  induction k generalizing v with
  | zero => simp [numberLimbs]
  | succ k ih => exact List.forall_mem_cons.2 ⟨Nat.mod_lt _ hr, ih _⟩

theorem limbsValue_numberLimbs (radix k v : Nat) : limbsValue radix (numberLimbs radix k v) = v % radix ^ k := by
  induction k generalizing v with
  | zero => simp [numberLimbs, limbsValue, Nat.mod_one]
  | succ k ih => rw [numberLimbs, limbsValue, ih, Nat.pow_succ', Nat.mod_mul]

theorem numberLimbs_limbsValue (h : ∀ l ∈ ls, l < radix) : numberLimbs radix ls.length (limbsValue radix ls) = ls := by
  induction ls with
  | nil => rfl
  | cons l ls ih =>
    obtain ⟨hl, hls⟩ := List.forall_mem_cons.1 h
    rw [List.length_cons, numberLimbs, limbsValue, Nat.add_mul_mod_self_left, Nat.mod_eq_of_lt hl,
      Nat.add_mul_div_left _ _ (by omega), Nat.div_eq_of_lt hl, Nat.zero_add, ih hls]

/-! ### The limbs of a wide value -/

/-- A wide value has 16 to 128 bits (00_scope.md R7). -/
theorem Params.legal_W (hp : p.legal = true) : 16 ≤ p.W ∧ p.W ≤ 128 := by
  obtain ⟨hbytes, hlo, hhi⟩ := Params.legal_wideBytes hp
  omega

theorem Params.one_lt_radix (hp : p.legal = true) : 1 < p.radix := by
  obtain ⟨⟨⟨⟨⟨hLB, -⟩, -⟩, -⟩, -⟩, -⟩ := Params.legal_iff.1 hp
  exact Nat.one_lt_two_pow (by omega)

/-- The limbs fill the register: `RADIX^N = 2^W`. -/
theorem Params.radix_pow_N (p : Params) : p.radix ^ p.N = 2 ^ p.W := by
  rw [Params.radix, Params.W, ← Nat.pow_mul, Nat.mul_comm]

@[simp] theorem length_limbs (p : Params) (x : Wide) : (limbs p x).length = p.N := by simp [limbs]

theorem getElem_limbs (p : Params) (x : Wide) (i : Nat) (h : i < (limbs p x).length) : (limbs p x)[i] = limb p x i := by
  simp [limbs]

theorem limbs_eq_numberLimbs (p : Params) (x : Wide) : limbs p x = numberLimbs p.radix p.N (uval p x) := by
  refine List.ext_getElem (by simp) fun i _ _ => ?_
  rw [getElem_limbs, getElem_numberLimbs, limb, Params.radix, Nat.pow_mul]

theorem limbs_lt (p : Params) (x : Wide) : ∀ l ∈ limbs p x, l < p.radix := by
  rw [limbs_eq_numberLimbs]
  exact numberLimbs_lt (Nat.two_pow_pos _) _ _

theorem limbsValue_limbs (p : Params) (x : Wide) : limbsValue p.radix (limbs p x) = uval p x := by
  rw [limbs_eq_numberLimbs, limbsValue_numberLimbs, Params.radix_pow_N, Nat.mod_eq_of_lt (uval_lt p x)]

section Mklimbs
variable (hp : p.legal = true) (hlen : ls.length = p.N) (h : ∀ l ∈ ls, l < p.radix)
include hp hlen h

/-- The limbs of a W-bit pattern denote its number. -/
theorem toNat_mklimbs : (mklimbs p ls).toNat = limbsValue p.radix ls ∧ limbsValue p.radix ls < 2 ^ p.W := by
  have hlt : limbsValue p.radix ls < 2 ^ p.W := by
    rw [← Params.radix_pow_N, ← hlen]
    exact limbsValue_lt (Params.one_lt_radix hp) h
  exact ⟨Nat.mod_eq_of_lt (hlt.trans_le (Nat.pow_le_pow_right (by decide) (Params.legal_W hp).2)), hlt⟩

theorem mklimbs_lt : (mklimbs p ls).toNat < 2 ^ p.W := by
  obtain ⟨hval, hlt⟩ := toNat_mklimbs hp hlen h
  exact hval ▸ hlt

theorem uval_mklimbs : uval p (mklimbs p ls) = limbsValue p.radix ls := by
  rw [uval, Nat.mod_eq_of_lt (mklimbs_lt hp hlen h), (toNat_mklimbs hp hlen h).1]

theorem limbs_mklimbs : limbs p (mklimbs p ls) = ls := by
  rw [limbs_eq_numberLimbs, uval_mklimbs hp hlen h, ← hlen, numberLimbs_limbsValue h]

end Mklimbs

end Sys2Proof.Machine
end

section
/-! SUPPORT. The readings and the encoding of a wide value (00_scope.md R11, R12): a pattern is the encoding of exactly the integers congruent
to its value modulo 2^W, and the signed reading of an encoding is the integer itself where that fits. -/

namespace Sys2Proof.Machine

variable {p : Params} {x : Wide} {v w : Int}

/-! ### The encoding -/

theorem toNat_encW (hp : p.legal = true) (v : Int) : ((encW p v).toNat : Int) = v % 2 ^ p.W := by
  have hW : (2 : Int) ^ p.W ≤ 2 ^ 128 := pow_le_pow_right₀ (by decide) (Params.legal_W hp).2
  have hpos : (0 : Int) < 2 ^ p.W := by positivity
  have h0 : 0 ≤ v % 2 ^ p.W := Int.emod_nonneg v hpos.ne'
  have hlt : v % 2 ^ p.W < 2 ^ p.W := Int.emod_lt_of_pos v hpos
  rw [encW, BitVec.toNat_ofInt, Int.emod_eq_of_lt h0 (by exact_mod_cast hlt.trans_le hW), Int.toNat_of_nonneg h0]

theorem encW_lt (hp : p.legal = true) (v : Int) : (encW p v).toNat < 2 ^ p.W := by
  have hlt : v % 2 ^ p.W < 2 ^ p.W := Int.emod_lt_of_pos v (by positivity)
  rw [← toNat_encW hp] at hlt
  exact_mod_cast hlt

theorem encW_congr (h : v ≡ w [ZMOD 2 ^ p.W]) : encW p v = encW p w := by rw [encW, encW, h]

theorem uval_encW (hp : p.legal = true) (v : Int) : (uval p (encW p v) : Int) = v % 2 ^ p.W := by
  rw [uval, Nat.mod_eq_of_lt (encW_lt hp v), toNat_encW hp]

theorem uval_encW_modEq (hp : p.legal = true) (v : Int) : uval p (encW p v) ≡ v [ZMOD 2 ^ p.W] := by
  rw [uval_encW hp]
  exact Int.mod_modEq v _

/-- A W-bit pattern is the encoding of each integer congruent to its unsigned value. -/
theorem eq_encW (hp : p.legal = true) (hx : x.toNat < 2 ^ p.W) (h : uval p x ≡ v [ZMOD 2 ^ p.W]) : x = encW p v := by
  refine BitVec.eq_of_toNat_eq (Int.ofNat.inj ?_)
  have huval : uval p x = x.toNat := Nat.mod_eq_of_lt hx
  calc (x.toNat : Int) = x.toNat % 2 ^ p.W := (Int.emod_eq_of_lt (by positivity) (by exact_mod_cast hx)).symm
    _ = v % 2 ^ p.W := huval ▸ h
    _ = (encW p v).toNat := (toNat_encW hp v).symm

/-! ### The signed reading -/

theorem sval_modEq_uval (p : Params) (x : Wide) : sval p x ≡ uval p x [ZMOD 2 ^ p.W] :=
  (Int.modEq_iff_dvd.2 ⟨if isneg p x then 1 else 0, by rw [sval]; ring⟩)

/-- A W-bit pattern is the encoding of its signed value. -/
theorem eq_encW_sval (hp : p.legal = true) (hx : x.toNat < 2 ^ p.W) : x = encW p (sval p x) :=
  eq_encW hp hx (sval_modEq_uval p x).symm

theorem Params.two_pow_W {α : Type} [Semiring α] (hp : p.legal = true) : (2 : α) ^ p.W = 2 * 2 ^ (p.W - 1) := by
  obtain ⟨hW, -⟩ := Params.legal_W hp
  rw [← pow_succ', Nat.sub_add_cancel (by omega)]

/-- The top bit is set from 2^(W-1) on. -/
theorem isneg_iff_le_uval (hp : p.legal = true) (x : Wide) : isneg p x = true ↔ 2 ^ (p.W - 1) ≤ uval p x := by
  have hlt : uval p x < 2 * 2 ^ (p.W - 1) := Params.two_pow_W (α := Nat) hp ▸ uval_lt p x
  have hquot : uval p x / 2 ^ (p.W - 1) < 2 := Nat.div_lt_of_lt_mul (by omega)
  rw [isneg, beq_iff_eq, Nat.mod_eq_of_lt hquot, ← Nat.one_le_div_iff (by positivity)]
  omega

theorem fitsW_sval (hp : p.legal = true) (x : Wide) : fitsW p (sval p x) := by
  have hW := Params.two_pow_W (α := Int) hp
  have hlt : (uval p x : Int) < 2 ^ p.W := by exact_mod_cast uval_lt p x
  have hneg : isneg p x = true ↔ (2 : Int) ^ (p.W - 1) ≤ uval p x := by exact_mod_cast isneg_iff_le_uval hp x
  unfold fitsW sval
  cases hsign : isneg p x <;> simp only [hsign, true_iff, false_iff, Bool.false_eq_true, if_true, if_false] at hneg ⊢ <;> omega

/-- Two integers in the signed range that agree modulo 2^W are the same. -/
theorem fitsW.eq_of_modEq (hp : p.legal = true) (hv : fitsW p v) (hw : fitsW p w) (h : v ≡ w [ZMOD 2 ^ p.W]) : v = w := by
  have hW := Params.two_pow_W (α := Int) hp
  obtain ⟨hvlo, hvhi⟩ := hv
  obtain ⟨hwlo, hwhi⟩ := hw
  have hzero : w - v = 0 := Int.eq_zero_of_abs_lt_dvd (Int.modEq_iff_dvd.1 h) (abs_lt.2 ⟨by omega, by omega⟩)
  omega

theorem sval_encW (hp : p.legal = true) (hv : fitsW p v) : sval p (encW p v) = v :=
  (fitsW_sval hp _).eq_of_modEq hp hv ((sval_modEq_uval p _).trans (uval_encW_modEq hp v))

end Sys2Proof.Machine
end

section
/-! SUPPORT. The limb negator (40_limb_sign.md R120) and the limb adder (41_add_sub.md R153): their loops compute modulo RADIX^N, so the
results are the encodings of the negation and of the sum. The laws of R132 and R154 (O28) follow. -/

namespace Sys2Proof.Machine

variable {radix c l n : Nat} {ls xs ys : List Nat} {p : Params} {x y : Wide} {v w : Int}

/-! ### The loops -/

/-- The value modulo RADIX^(n+1) of a limb above which the other limbs are known modulo RADIX^n. -/
theorem limbsValue_cons_modEq (hrest : limbsValue radix ls ≡ w [ZMOD (radix : Int) ^ n]) (hv : (l : Int) + radix * w = v) :
    limbsValue radix (l :: ls) ≡ v [ZMOD (radix : Int) ^ (n + 1)] := by
  rw [← hv, limbsValue, pow_succ', Nat.cast_add, Nat.cast_mul]
  exact hrest.mul_left'.add_left _

@[simp] theorem length_negLimbs (radix c : Nat) (ls : List Nat) : (negLimbs radix c ls).length = ls.length := by
  fun_induction negLimbs radix c ls with
  | case1 => rfl
  | case2 _ _ _ _ _ ih => rw [List.length_cons, ih, List.length_cons]
  | case3 _ _ _ _ _ ih => rw [List.length_cons, ih, List.length_cons]

theorem negLimbs_lt (hr : 0 < radix) (hc : c ≤ 1) : ∀ l ∈ negLimbs radix c ls, l < radix := by
  fun_induction negLimbs radix c ls with
  | case1 => simp
  | case2 c l ls t hcarry ih => exact List.forall_mem_cons.2 ⟨by omega, ih le_rfl⟩
  | case3 c l ls t hno ih => exact List.forall_mem_cons.2 ⟨by omega, ih zero_le_one⟩

/-- The one's complement of a list of limbs is `-1` minus its value, to which the carry in is added. -/
theorem limbsValue_negLimbs (h : ∀ l ∈ ls, l < radix) :
    limbsValue radix (negLimbs radix c ls) ≡ c - 1 - limbsValue radix ls [ZMOD (radix : Int) ^ ls.length] := by
  fun_induction negLimbs radix c ls with
  | case1 => simpa using Int.modEq_one
  | case2 c l ls t hcarry ih =>
    obtain ⟨hl, hls⟩ := List.forall_mem_cons.1 h
    have hlimb : ((t - radix : Nat) : Int) = c - 1 - l := by omega
    exact limbsValue_cons_modEq (ih hls) (by rw [hlimb, limbsValue]; push_cast; ring)
  | case3 c l ls t hno ih =>
    obtain ⟨hl, hls⟩ := List.forall_mem_cons.1 h
    have hlimb : (t : Int) = radix + c - 1 - l := by omega
    exact limbsValue_cons_modEq (ih hls) (by rw [hlimb, limbsValue]; push_cast; ring)

/-- Where two lists are not both nonempty, one is empty: the adder's last case. -/
theorem nil_or_nil_of_forall_cons (h : ∀ x xs' y ys', xs = x :: xs' → ys = y :: ys' → False) : xs = [] ∨ ys = [] := by
  cases xs with
  | nil => exact .inl rfl
  | cons x xs' =>
    cases ys with
    | nil => exact .inr rfl
    | cons y ys' => exact (h x xs' y ys' rfl rfl).elim

theorem length_addLimbs (radix c : Nat) (xs ys : List Nat) : (addLimbs radix c xs ys).length = min xs.length ys.length := by
  fun_induction addLimbs radix c xs ys with
  | case1 c x xs y ys t hcarry ih => simp only [List.length_cons, ih, Nat.add_min_add_right]
  | case2 c x xs y ys t hno ih => simp only [List.length_cons, ih, Nat.add_min_add_right]
  | case3 xs _ ys hnil => rcases nil_or_nil_of_forall_cons hnil with rfl | rfl <;> simp

theorem addLimbs_lt (hc : c ≤ 1) (hx : ∀ l ∈ xs, l < radix) (hy : ∀ l ∈ ys, l < radix) :
    ∀ l ∈ addLimbs radix c xs ys, l < radix := by
  fun_induction addLimbs radix c xs ys with
  | case1 c x xs y ys t hcarry ih =>
    obtain ⟨hx, hxs⟩ := List.forall_mem_cons.1 hx
    obtain ⟨hy, hys⟩ := List.forall_mem_cons.1 hy
    exact List.forall_mem_cons.2 ⟨by omega, ih le_rfl hxs hys⟩
  | case2 c x xs y ys t hno ih =>
    obtain ⟨-, hxs⟩ := List.forall_mem_cons.1 hx
    obtain ⟨-, hys⟩ := List.forall_mem_cons.1 hy
    exact List.forall_mem_cons.2 ⟨by omega, ih zero_le_one hxs hys⟩
  | case3 => simp

theorem limbsValue_addLimbs (hlen : xs.length = ys.length) :
    limbsValue radix (addLimbs radix c xs ys) ≡ c + limbsValue radix xs + limbsValue radix ys [ZMOD (radix : Int) ^ xs.length] := by
  fun_induction addLimbs radix c xs ys with
  | case1 c x xs y ys t hcarry ih =>
    have hlimb : ((t - radix : Nat) : Int) = x + y + c - radix := by omega
    exact limbsValue_cons_modEq (ih (Nat.succ.inj hlen)) (by rw [hlimb, limbsValue, limbsValue]; push_cast; ring)
  | case2 c x xs y ys t hno ih =>
    have hlimb : (t : Int) = x + y + c := by omega
    exact limbsValue_cons_modEq (ih (Nat.succ.inj hlen)) (by rw [hlimb, limbsValue, limbsValue]; push_cast; ring)
  | case3 xs _ ys hnil =>
    have hxs : xs = [] := (nil_or_nil_of_forall_cons hnil).elim id fun hys => List.length_eq_zero_iff.1 (hlen.trans (congrArg _ hys))
    subst hxs
    simpa using Int.modEq_one

/-! ### The negator and the adder -/

/-- A datapath result whose limbs denote `v` modulo RADIX^N is the encoding of `v`. -/
theorem mklimbs_eq_encW (hp : p.legal = true) (hlen : ls.length = p.N) (h : ∀ l ∈ ls, l < p.radix)
    (hv : limbsValue p.radix ls ≡ v [ZMOD (p.radix : Int) ^ p.N]) : mklimbs p ls = encW p v := by
  refine eq_encW hp (mklimbs_lt hp hlen h) ?_
  have hmod : (p.radix : Int) ^ p.N = 2 ^ p.W := by exact_mod_cast Params.radix_pow_N p
  rwa [uval_mklimbs hp hlen h, ← hmod]

theorem neg_eq_encW (hp : p.legal = true) (x : Wide) : neg p x = encW p (-(uval p x)) := by
  refine mklimbs_eq_encW hp (by simp) (negLimbs_lt (by have := Params.one_lt_radix hp; omega) le_rfl) ?_
  simpa [limbsValue_limbs] using limbsValue_negLimbs (c := 1) (limbs_lt p x)

theorem add_eq_encW (hp : p.legal = true) (x y : Wide) : add p x y = encW p (uval p x + uval p y) := by
  refine mklimbs_eq_encW hp (by simp [length_addLimbs]) (addLimbs_lt zero_le_one (limbs_lt p x) (limbs_lt p y)) ?_
  simpa [limbsValue_limbs] using
    limbsValue_addLimbs (radix := p.radix) (c := 0) (xs := limbs p x) (ys := limbs p y) (by simp)

theorem neg_eq_encW_sval (hp : p.legal = true) (x : Wide) : neg p x = encW p (-(sval p x)) :=
  (neg_eq_encW hp x).trans (encW_congr (sval_modEq_uval p x).symm.neg)

theorem uval_neg_modEq (hp : p.legal = true) (x : Wide) : uval p (neg p x) ≡ -(uval p x) [ZMOD 2 ^ p.W] :=
  neg_eq_encW hp x ▸ uval_encW_modEq hp _

theorem uval_add_modEq (hp : p.legal = true) (x y : Wide) : uval p (add p x y) ≡ uval p x + uval p y [ZMOD 2 ^ p.W] :=
  add_eq_encW hp x y ▸ uval_encW_modEq hp _

/-- The absolute value as ABS takes it (40_limb_sign.md R128): the negation of a negative operand, else the operand. -/
theorem ite_isneg_neg_eq_encW (hp : p.legal = true) (hx : x.toNat < 2 ^ p.W) :
    (if isneg p x then neg p x else x) = encW p |sval p x| := by
  split
  next hneg => rw [abs_of_neg ((isneg_iff_sval_neg p x).1 hneg), neg_eq_encW_sval hp]
  next hnonneg =>
    rw [abs_of_nonneg (not_lt.1 fun hlt => hnonneg ((isneg_iff_sval_neg p x).2 hlt))]
    exact eq_encW_sval hp hx

/-! ### The laws -/

theorem toNat_neg_lt (hp : p.legal = true) (x : Wide) : (neg p x).toNat < 2 ^ p.W := neg_eq_encW hp x ▸ encW_lt hp _

theorem neg_neg_eq (hp : p.legal = true) (hx : x.toNat < 2 ^ p.W) : neg p (neg p x) = x := by
  rw [neg_eq_encW hp (neg p x)]
  exact (eq_encW hp hx (by simpa using (uval_neg_modEq hp x).neg.symm)).symm

/-- The signed value of the negation is the negated value, but for MIN, whose negation is MIN. -/
theorem sval_neg_or_neg_eq (hp : p.legal = true) (hx : x.toNat < 2 ^ p.W) : sval p (neg p x) = -(sval p x) ∨ neg p x = x := by
  obtain ⟨hlo, hhi⟩ := fitsW_sval hp x
  rcases hlo.lt_or_eq with hlt | hmin
  · exact .inl (neg_eq_encW_sval hp x ▸ sval_encW hp ⟨by omega, by omega⟩)
  · have hmod : -(sval p x) ≡ sval p x [ZMOD 2 ^ p.W] :=
      Int.modEq_iff_dvd.2 ⟨-1, by rw [← hmin, Params.two_pow_W hp]; ring⟩
    exact .inr ((neg_eq_encW_sval hp x).trans ((encW_congr hmod).trans (eq_encW_sval hp hx).symm))

theorem abs_neg_eq (hp : p.legal = true) (hx : x.toNat < 2 ^ p.W) :
    (if isneg p x then neg p x else x) = (if isneg p (neg p x) then neg p (neg p x) else neg p x) := by
  rcases sval_neg_or_neg_eq hp hx with hval | hfix
  · rw [ite_isneg_neg_eq_encW hp hx, ite_isneg_neg_eq_encW hp (toNat_neg_lt hp x), hval, abs_neg]
  · rw [hfix, hfix]

theorem add_add_neg_eq (hp : p.legal = true) (hx : x.toNat < 2 ^ p.W) (y : Wide) : add p (add p x y) (neg p y) = x := by
  rw [add_eq_encW hp (add p x y)]
  have hmod := (uval_add_modEq hp x y).add (uval_neg_modEq hp y)
  rw [add_neg_cancel_right] at hmod
  exact (eq_encW hp hx hmod.symm).symm

theorem add_neg_add_eq (hp : p.legal = true) (hx : x.toNat < 2 ^ p.W) (hy : y.toNat < 2 ^ p.W) :
    add p (add p x (neg p y)) y = x := by
  simpa only [neg_neg_eq hp hy] using add_add_neg_eq hp hx (neg p y)

/-- Settles O28: negation and addition are those of the integers modulo 2^W. -/
theorem negationAndAdditionLaws : Obligations.NegationAndAdditionLaws :=
  fun _ _ y hp hx hy => ⟨neg_neg_eq hp hx, abs_neg_eq hp hx, add_add_neg_eq hp hx y, add_neg_add_eq hp hx hy⟩

end Sys2Proof.Machine
end

section
/-! SUPPORT. The instructions of 40_limb_sign.md that write a wide register: construction (O22), one limb (O23), negation and absolute value
(O24), and shifts by bits (O25). -/

namespace Sys2Proof.Machine

variable {i : Instr} {s : State} {p : Params} {d : WReg} {v : Int}

/-! ### How such an instruction ends -/

/-- Instruction `i`, run at `s`, writes a value with property `P` to `W[d]`, and changes nothing else but pc. -/
def WideResult (i : Instr) (s : State) (d : WReg) (P : Wide → Prop) : Prop :=
  ∃ t, exec i s = .next t ∧ s.OnlyWide t d ∧ P (t.readW d)

/-- An instruction that writes a W-bit pattern and goes on to the next instruction. -/
theorem wideResult_of_writeWNext {x : Wide} {P : Wide → Prop} (hexec : exec i s = s.writeWNext d x)
    (hx : x.toNat < 2 ^ s.params.W) (hP : P x) : WideResult i s d P := by
  refine ⟨(s.writeW d x).advance, hexec, ⟨rfl, fun r hr => ?_⟩, ?_⟩
  · rw [State.readW_advance, State.readW_writeW, if_neg hr]
  · rwa [State.readW_advance, State.readW_writeW, if_pos rfl, truncW_of_lt _ _ hx]

/-! ### Construction -/

/-- Every 16-bit signed value fits: W is at least 16 (00_scope.md R7). -/
theorem fitsW_half (hp : p.legal = true) (h : Half) : fitsW p h.toInt := by
  obtain ⟨hW, -⟩ := Params.legal_W hp
  have hpow : (2 : Int) ^ 15 ≤ 2 ^ (p.W - 1) := pow_le_pow_right₀ (by decide) (by omega)
  have hlo := h.le_toInt
  have hhi := h.toInt_lt
  unfold fitsW
  omega

theorem exec_wfroms_result (hp : s.params.legal = true) (d : WReg) (a : SReg) :
    WideResult (.wfroms d a) s d fun w => sval s.params w = (s.readS a).toInt :=
  wideResult_of_writeWNext rfl (encW_lt hp _) (sval_encW hp (fitsW_half hp _))

theorem exec_ldi_result (hp : s.params.legal = true) (d : WReg) (simm : Half) :
    WideResult (.ldi d simm) s d fun w => sval s.params w = simm.toInt :=
  wideResult_of_writeWNext rfl (encW_lt hp _) (sval_encW hp (fitsW_half hp _))

theorem exec_mov_result (s : State) (d a : WReg) : WideResult (.mov d a) s d (· = s.readW a) :=
  wideResult_of_writeWNext rfl (s.readW_lt a) rfl

/-- Settles O22: WFROMS and LDI write the encoding of a value that fits, MOV the source's pattern. -/
theorem constructionResults : Obligations.ConstructionResults :=
  fun s d a simm hp => ⟨exec_wfroms_result hp d a, exec_ldi_result hp d simm, exec_mov_result s d a⟩

/-! ### One limb -/

theorem limbs_set_lt (x : Wide) (idx : Nat) {val : Nat} (hval : val < p.radix) :
    ∀ l ∈ (limbs p x).set idx val, l < p.radix := by
  intro l hl
  rcases List.mem_or_eq_of_mem_set hl with hmem | rfl
  · exact limbs_lt p x l hmem
  · exact hval

section SetLimb
variable (hp : p.legal = true) (x : Wide) (idx : Nat) {val j : Nat} (hval : val < p.radix)
include hp hval

theorem mklimbs_set_lt : (mklimbs p ((limbs p x).set idx val)).toNat < 2 ^ p.W :=
  mklimbs_lt hp (by simp) (limbs_set_lt x idx hval)

theorem limb_mklimbs_set (hj : j < p.N) :
    limb p (mklimbs p ((limbs p x).set idx val)) j = if j = idx then val else limb p x j := by
  have hlimbs := limbs_mklimbs hp (by simp) (limbs_set_lt x idx hval)
  rw [← getElem_limbs p _ j (by simpa using hj), List.getElem_of_eq hlimbs, List.getElem_set, getElem_limbs]
  exact if_congr eq_comm rfl rfl

end SetLimb

theorem exec_setl_result {idx val : Byte} (hp : s.params.legal = true) (d : WReg) (hidx : idx.toNat < s.params.N)
    (hval : val.toNat < s.params.radix) :
    WideResult (.setl d idx val) s d fun w =>
      ∀ i < s.params.N, limb s.params w i = if i = idx.toNat then val.toNat else limb s.params (s.readW d) i :=
  wideResult_of_writeWNext ((if_neg (not_le.2 hidx)).trans (if_neg (not_le.2 hval))) (mklimbs_set_lt hp _ _ hval)
    fun _ hi => limb_mklimbs_set hp _ _ hval hi

/-- Settles O23: the two faults are the branches before the write. -/
theorem setlResult : Obligations.SetlResult :=
  fun _ d _ _ hp => ⟨exec_setl_result hp d, fun hidx hval => (if_neg (not_le.2 hidx)).trans (if_pos hval), fun hidx => if_pos hidx⟩

/-! ### Negation and absolute value -/

theorem exec_neg_result (hp : s.params.legal = true) (d a : WReg) :
    WideResult (.neg d a) s d (· = encW s.params (-(sval s.params (s.readW a)))) :=
  wideResult_of_writeWNext rfl (toNat_neg_lt hp _) (neg_eq_encW_sval hp _)

theorem exec_abs_result (hp : s.params.legal = true) (d a : WReg) :
    WideResult (.abs d a) s d (· = encW s.params |sval s.params (s.readW a)|) :=
  wideResult_of_writeWNext (congrArg (s.writeWNext d) (ite_isneg_neg_eq_encW hp (s.readW_lt a))) (encW_lt hp _) rfl

/-- Settles O24: the limb negator's result, and that of ABS's choice between it and the operand. -/
theorem negAbsResults : Obligations.NegAbsResults := fun _ d a hp => ⟨exec_neg_result hp d a, exec_abs_result hp d a⟩

/-! ### Shifts by bits -/

/-- SHL's two cases are one: a count of W or more multiplies by a multiple of 2^W. -/
theorem ite_shl_eq_encW (p : Params) (u n : Nat) :
    (if n ≥ p.W then 0 else encW p ((u * 2 ^ n : Nat) : Int)) = encW p ((u * 2 ^ n : Nat) : Int) := by
  split
  next hn =>
    have hzero : ((u * 2 ^ n : Nat) : Int) ≡ 0 [ZMOD 2 ^ p.W] :=
      Int.modEq_zero_iff_dvd.2 (by exact_mod_cast (pow_dvd_pow 2 hn).mul_left u)
    rw [encW_congr hzero, encW, Int.zero_emod]
    rfl
  next => rfl

section SignedRange
variable {m : Int} (hv : fitsW p v)
include hv

/-- A floor quotient of a value in the signed range is in it. -/
theorem fitsW.ediv (hm : 0 < m) : fitsW p (v / m) := by
  obtain ⟨hlo, hhi⟩ := hv
  have hpos : (0 : Int) < 2 ^ (p.W - 1) := by positivity
  exact ⟨Int.le_ediv_of_mul_le hm (by nlinarith), Int.ediv_lt_of_lt_mul hm (by nlinarith)⟩

/-- A divisor past the signed range leaves the sign alone. -/
theorem fitsW.ediv_of_le (hm : (2 : Int) ^ (p.W - 1) ≤ m) : v / m = if v < 0 then -1 else 0 := by
  obtain ⟨hlo, hhi⟩ := hv
  split
  next hneg => exact Int.ediv_eq_neg_one_of_neg_of_le hneg (by omega)
  next hnonneg => exact Int.ediv_eq_zero_of_lt (by omega) (by omega)

/-- ASR's cap on the count changes nothing: from W on, only the sign is left. -/
theorem fitsW.ediv_two_pow_min (n : Nat) : v / 2 ^ min n p.W = v / 2 ^ n := by
  rcases le_total n p.W with hn | hn
  · rw [min_eq_left hn]
  · rw [min_eq_right hn, hv.ediv_of_le (pow_le_pow_right₀ one_le_two (by omega)),
      hv.ediv_of_le (pow_le_pow_right₀ one_le_two (by omega))]

end SignedRange

theorem exec_shl_result (hp : s.params.legal = true) (d a : WReg) (count : Half) :
    WideResult (.shl d a count) s d fun w =>
      uval s.params w = uval s.params (s.readW a) * 2 ^ count.toNat % 2 ^ s.params.W :=
  wideResult_of_writeWNext (congrArg (s.writeWNext d) (ite_shl_eq_encW _ _ _)) (encW_lt hp _)
    (by exact_mod_cast uval_encW hp ((uval s.params (s.readW a) * 2 ^ count.toNat : Nat) : Int))

theorem exec_asr_result (hp : s.params.legal = true) (d a : WReg) (count : Half) :
    WideResult (.asr d a count) s d fun w => sval s.params w = sval s.params (s.readW a) / 2 ^ count.toNat := by
  have hfits := fitsW_sval hp (s.readW a)
  refine wideResult_of_writeWNext rfl (encW_lt hp _) ?_
  rw [sval_encW hp (hfits.ediv (by positivity)), hfits.ediv_two_pow_min]

/-- Settles O25: SHL's product wraps, and ASR's quotient is in the signed range, at every count. -/
theorem wideBitShiftResults : Obligations.WideBitShiftResults :=
  fun _ d a count hp => ⟨exec_shl_result hp d a count, exec_asr_result hp d a count⟩

end Sys2Proof.Machine
end

section
/-! SUPPORT. The instructions of 41_add_sub.md that write a wide register: ADD and SUB (O26). -/

namespace Sys2Proof.Machine

variable {s : State} {p : Params}

theorem toNat_add_lt (hp : p.legal = true) (x y : Wide) : (add p x y).toNat < 2 ^ p.W := add_eq_encW hp x y ▸ encW_lt hp _

/-- The adder over the negator, as SUB runs them (41_add_sub.md R151), encodes the difference. -/
theorem add_neg_eq_encW (hp : p.legal = true) (x y : Wide) : add p x (neg p y) = encW p (uval p x - uval p y) := by
  rw [add_eq_encW hp, sub_eq_add_neg]
  exact encW_congr ((uval_neg_modEq hp y).add_left _)

theorem exec_add_result (hp : s.params.legal = true) (d a b : WReg) :
    WideResult (.add d a b) s d (· = encW s.params (uval s.params (s.readW a) + uval s.params (s.readW b))) :=
  wideResult_of_writeWNext rfl (toNat_add_lt hp _ _) (add_eq_encW hp _ _)

theorem exec_sub_result (hp : s.params.legal = true) (d a b : WReg) :
    WideResult (.sub d a b) s d (· = encW s.params (uval s.params (s.readW a) - uval s.params (s.readW b))) :=
  wideResult_of_writeWNext rfl (toNat_add_lt hp _ _) (add_neg_eq_encW hp _ _)

/-- Settles O26: the limb adder's result on the operands, and on the first operand and the second's negation. -/
theorem addSubResults : Obligations.AddSubResults := fun _ d a b hp => ⟨exec_add_result hp d a b, exec_sub_result hp d a b⟩

end Sys2Proof.Machine
end

section
/-! SUPPORT. The schoolbook multiplier (42_multiply.md R170, O30): each row of its loop adds one limb's multiple of the multiplicand, so the
rows together add the product. -/

namespace Sys2Proof.Machine

/-! ### One row -/

@[simp] theorem limbsValue_cons (radix l : Nat) (ls : List Nat) :
    limbsValue radix (l :: ls) = l + radix * limbsValue radix ls := rfl

/-- The low limb of a list, an absent limb read as 0, and the limbs above it. -/
theorem limbsValue_eq_headD_add (radix : Nat) (ls : List Nat) :
    limbsValue radix ls = ls.headD 0 + radix * limbsValue radix ls.tail := by
  cases ls <;> simp [limbsValue]

theorem getD_tail (ls : List Nat) (k : Nat) : ls.tail.getD k 0 = ls.getD (k + 1) 0 := by cases ls <;> simp

/-- A row adds `u` times the multiplicand and the carry in. The limb that takes the last carry is overwritten, so its old value is lost. -/
theorem limbsValue_mulRow (radix u c : Nat) (qs r : List Nat) :
    limbsValue radix (mulRow radix u c qs r) + radix ^ qs.length * r.getD qs.length 0 =
      u * limbsValue radix qs + limbsValue radix r + c := by
  fun_induction mulRow radix u c qs r with
  | case1 c r =>
    cases r with
    | nil => simp [limbsValue]
    | cons l ls => simp [limbsValue]; omega
  | case2 c q qs r t ih =>
    have hlimb : t % radix + radix * (t / radix) = u * q + r.headD 0 + c := Nat.mod_add_div t radix
    rw [getD_tail] at ih
    rw [List.length_cons, limbsValue_cons, limbsValue_cons, limbsValue_eq_headD_add radix r, pow_succ]
    linear_combination radix * ih + hlimb

/-- A row leaves the limbs above the one that takes its last carry. -/
theorem getD_mulRow_of_lt (radix u c : Nat) (qs r : List Nat) :
    ∀ k > qs.length, (mulRow radix u c qs r).getD k 0 = r.getD k 0 := by
  fun_induction mulRow radix u c qs r with
  | case1 c r =>
    rintro (_ | k) hk
    · cases hk
    · rw [List.getD_cons_succ, getD_tail]
  | case2 c q qs r t ih =>
    rintro (_ | k) hk
    · cases hk
    · rw [List.getD_cons_succ, ih k (Nat.succ_lt_succ_iff.1 hk), getD_tail]

/-! ### All rows -/

/-- The rows add the product to `r`, when the limbs that the rows overwrite with their last carries are 0. -/
theorem limbsValue_mulRows (radix : Nat) (qs us r : List Nat) (hr : ∀ k ≥ qs.length, r.getD k 0 = 0) :
    limbsValue radix (mulRows radix qs us r) = limbsValue radix us * limbsValue radix qs + limbsValue radix r := by
  induction us generalizing r with
  | nil => simp [mulRows, limbsValue]
  | cons u us ih =>
    have hrow := limbsValue_mulRow radix u 0 qs r
    rw [hr _ le_rfl, limbsValue_eq_headD_add] at hrow
    have hrest := ih (mulRow radix u 0 qs r).tail fun k hk => by
      rw [getD_tail, getD_mulRow_of_lt radix u 0 qs r _ (by omega), hr _ (by omega)]
    rw [mulRows, limbsValue_cons, limbsValue_cons, hrest]
    linear_combination hrow

theorem limbsValue_replicate_zero (radix n : Nat) : limbsValue radix (List.replicate n 0) = 0 := by
  induction n with
  | zero => rfl
  | succ n ih => rw [List.replicate_succ, limbsValue_cons, ih, Nat.mul_zero]

/-- Settles O30: the rows start from zeros, and the operands' limbs denote the operands. -/
theorem schoolbookMultiplierIsExact : Obligations.SchoolbookMultiplierIsExact := by
  intro p x y _ hx hy
  rw [mulmag, limbsValue_mulRows _ _ _ _ fun k _ => by simp, limbsValue_replicate_zero, limbsValue_numberLimbs,
    limbsValue_numberLimbs, Params.radix_pow_N, Nat.mod_eq_of_lt hx, Nat.mod_eq_of_lt hy, Nat.add_zero]

end Sys2Proof.Machine
end

section
/-! SUPPORT. Sign and magnitude (40_limb_sign.md R122, 42_multiply.md R171): a wide value is its magnitude with its sign, and a result given as
sign and magnitude is written exactly when it fits. -/

namespace Sys2Proof.Machine

variable {s : State} {i : Instr} {d a b : WReg} {shift q : Nat} {sg : Bool} {p : Params} {x : Wide} {v : Int}

/-- The integer of sign `sg` and magnitude `q`. -/
def withSign (sg : Bool) (q : Nat) : Int := if sg then -(q : Int) else q

/-! ### Arithmetic on signs and magnitudes -/

theorem withSign_mul (sg tg : Bool) (q r : Nat) : withSign (Bool.xor sg tg) (q * r) = withSign sg q * withSign tg r := by
  cases sg <;> cases tg <;> simp [withSign]

/-- The magnitude's floor quotient, the sign kept, rounds toward zero (90_conflicts.md C10). -/
theorem withSign_div (sg : Bool) (q m : Nat) : withSign sg (q / m) = (withSign sg q).tdiv m := by
  cases sg <;> simp [withSign, Int.neg_tdiv]

/-! ### The magnitude of a wide value -/

theorem abs_sval_lt (hp : p.legal = true) (x : Wide) : |sval p x| < 2 ^ p.W := by
  obtain ⟨hlo, hhi⟩ := fitsW_sval hp x
  have hW := Params.two_pow_W (α := Int) hp
  exact abs_lt.2 ⟨by omega, by omega⟩

/-- The magnitude through the limb negator is the absolute value, MIN's too: its magnitude 2^(W-1) is an unsigned W-bit number. -/
theorem mag_eq_abs_sval (hp : p.legal = true) (hx : x.toNat < 2 ^ p.W) : (mag p x : Int) = |sval p x| := by
  rw [mag, ← apply_ite (uval p), ite_isneg_neg_eq_encW hp hx, uval_encW hp,
    Int.emod_eq_of_lt (abs_nonneg _) (abs_sval_lt hp x)]

theorem mag_lt (hp : p.legal = true) (hx : x.toNat < 2 ^ p.W) : mag p x < 2 ^ p.W := by
  exact_mod_cast mag_eq_abs_sval hp hx ▸ abs_sval_lt hp x

theorem withSign_mag (hp : p.legal = true) (hx : x.toNat < 2 ^ p.W) : withSign (isneg p x) (mag p x) = sval p x := by
  rw [withSign, mag_eq_abs_sval hp hx]
  split
  next hneg => rw [abs_of_neg ((isneg_iff_sval_neg p x).1 hneg), neg_neg]
  next hnonneg => exact abs_of_nonneg (not_lt.1 fun hlt => hnonneg ((isneg_iff_sval_neg p x).2 hlt))

/-! ### Writing a signed result -/

/-- The range test of R171 on the magnitude is the range test on the integer. -/
theorem fitsW_withSign_iff (p : Params) (sg : Bool) (q : Nat) :
    fitsW p (withSign sg q) ↔ q ≤ 2 ^ (p.W - 1) - 1 + sg.toNat := by
  have hpos : 0 < 2 ^ (p.W - 1) := by positivity
  have hcast : (2 : Int) ^ (p.W - 1) = (2 ^ (p.W - 1) : Nat) := by push_cast; rfl
  rw [fitsW, hcast, withSign]
  cases sg <;> simp <;> omega

/-- How an instruction ends that gives its result as sign and magnitude: with the exact value, or with OVERFLOW where it does not fit. -/
theorem signedResult_exact (hp : s.params.legal = true) (hexec : exec i s = s.signedResult d a b shift q sg)
    (hv : withSign sg q = v) :
    (fitsW s.params v → WideResult i s d fun w => sval s.params w = v) ∧
    (¬fitsW s.params v → exec i s = .next (s.raiseFault .overflow (arithInfo d a b shift))) := by
  subst hv
  rw [fitsW_withSign_iff]
  rcases State.signedResult_cases s d a b shift q sg with ⟨hle, hend⟩ | ⟨hlt, hend⟩
  · rw [← apply_ite (encW s.params)] at hend
    have hwrite : WideResult i s d fun w => sval s.params w = withSign sg q :=
      wideResult_of_writeWNext (hexec.trans hend) (encW_lt hp _) (sval_encW hp ((fitsW_withSign_iff _ _ _).2 hle))
    exact ⟨fun _ => hwrite, fun hno => absurd hle hno⟩
  · exact ⟨fun hle => absurd hle (not_le.2 hlt), fun _ => hexec.trans hend⟩

end Sys2Proof.Machine
end

section
/-! SUPPORT. The instructions of 42_multiply.md: MUL (O31) and FMUL (O32). -/

namespace Sys2Proof.Machine

variable {s : State}

/-- The multiplier on the magnitudes, with the sign of R172, gives the exact signed product. -/
theorem withSign_mulmag (hp : s.params.legal = true) (a b : WReg) :
    withSign (s.signXor a b) (mulmag s.params (mag s.params (s.readW a)) (mag s.params (s.readW b))) =
      sval s.params (s.readW a) * sval s.params (s.readW b) := by
  have hprod := schoolbookMultiplierIsExact s.params _ _ hp (mag_lt hp (s.readW_lt a)) (mag_lt hp (s.readW_lt b))
  rw [hprod, State.signXor, withSign_mul, withSign_mag hp (s.readW_lt a), withSign_mag hp (s.readW_lt b)]

/-- Settles O31: the signed product's magnitude and sign are what MUL ends with. -/
theorem mulResult : Obligations.MulResult :=
  fun _ _ a b hp => signedResult_exact hp rfl (withSign_mulmag hp a b)

/-- Settles O32: dropping the product's low SL limbs rounds the signed product over 2^FB toward zero. -/
theorem fmulResult : Obligations.FmulResult := by
  intro s d a b hp v
  refine signedResult_exact hp rfl ?_
  rw [withSign_div, withSign_mulmag hp, Nat.cast_pow, Nat.cast_ofNat]

end Sys2Proof.Machine
end

section
/-! SUPPORT. Cutting a number's limbs: its low limbs, the limbs above them, one limb, and a window of limbs replaced. -/

namespace Sys2Proof.Machine

variable {radix j k n w x : Nat} {ls : List Nat}

theorem limbsValue_eq_foldr (radix : Nat) (ls : List Nat) : limbsValue radix ls = ls.foldr (fun l x => x * radix + l) 0 := by
  induction ls with
  | nil => rfl
  | cons l ls ih => rw [limbsValue_cons, List.foldr_cons, ← ih, Nat.add_comm, Nat.mul_comm]

theorem limbsValue_numberLimbs_of_lt (hx : x < radix ^ k) : limbsValue radix (numberLimbs radix k x) = x := by
  rw [limbsValue_numberLimbs, Nat.mod_eq_of_lt hx]

theorem numberLimbs_mod (hr : 0 < radix) (k x : Nat) : numberLimbs radix k (x % radix ^ k) = numberLimbs radix k x := by
  have hlimbs := numberLimbs_limbsValue (numberLimbs_lt hr k x)
  rwa [length_numberLimbs, limbsValue_numberLimbs] at hlimbs

theorem numberLimbs_add (radix j k x : Nat) :
    numberLimbs radix (j + k) x = numberLimbs radix j x ++ numberLimbs radix k (x / radix ^ j) := by
  induction j generalizing x with
  | zero => simp [numberLimbs]
  | succ j ih => rw [Nat.succ_add, numberLimbs, numberLimbs, ih, List.cons_append, Nat.div_div_eq_div_mul, pow_succ']

theorem getD_numberLimbs (hk : k < n) (radix x : Nat) : (numberLimbs radix n x).getD k 0 = x / radix ^ k % radix := by
  have hlen : k < (numberLimbs radix n x).length := by rwa [length_numberLimbs]
  rw [List.getD_eq_getElem _ _ hlen, getElem_numberLimbs]

theorem headD_numberLimbs (hn : 1 ≤ n) (radix x : Nat) : (numberLimbs radix n x).headD 0 = x % radix := by
  obtain ⟨m, rfl⟩ := Nat.exists_eq_add_of_le' hn
  rfl

/-- The top limb of a number of `k` limbs. -/
theorem getD_top_limb (hk : 1 ≤ k) (hkn : k ≤ n) (hx : x < radix ^ k) :
    (numberLimbs radix n x).getD (k - 1) 0 = x / radix ^ (k - 1) := by
  rw [getD_numberLimbs (by omega), Nat.mod_eq_of_lt]
  exact Nat.div_lt_of_lt_mul (by rwa [← pow_succ, Nat.sub_add_cancel hk])

theorem take_numberLimbs (hk : k ≤ n) (radix x : Nat) : (numberLimbs radix n x).take k = numberLimbs radix k x := by
  obtain ⟨m, rfl⟩ := Nat.exists_eq_add_of_le hk
  rw [numberLimbs_add, List.take_left' (length_numberLimbs _ _ _)]

theorem drop_numberLimbs (radix k m x : Nat) :
    (numberLimbs radix (k + m) x).drop k = numberLimbs radix m (x / radix ^ k) := by
  rw [numberLimbs_add, List.drop_left' (length_numberLimbs _ _ _)]

/-- The low limbs hold a number that fits in them. -/
theorem limbsValue_take_numberLimbs (hk : x < radix ^ k) (hn : x < radix ^ n) :
    limbsValue radix ((numberLimbs radix n x).take k) = x := by
  rcases le_total k n with hkn | hnk
  · rw [take_numberLimbs hkn, limbsValue_numberLimbs_of_lt hk]
  · rw [List.take_of_length_le (by rwa [length_numberLimbs]), limbsValue_numberLimbs_of_lt hn]

/-- A number's limbs from limb `k` on, as a number. -/
theorem limbsValue_take_drop_numberLimbs (hjk : j + k ≤ n) (hx : x < radix ^ (j + k)) :
    limbsValue radix (((numberLimbs radix n x).drop j).take k) = x / radix ^ j := by
  obtain ⟨m, rfl⟩ := Nat.exists_eq_add_of_le hjk
  have hquot : x / radix ^ j < radix ^ k := Nat.div_lt_of_lt_mul (pow_add radix j k ▸ hx)
  rw [Nat.add_assoc, drop_numberLimbs, take_numberLimbs (Nat.le_add_right k m), limbsValue_numberLimbs_of_lt hquot]

/-- Replacing the limbs of a number from limb `j` on, where all above the window are 0. -/
theorem numberLimbs_replace_window (hr : 0 < radix) (hjk : j + k ≤ n) (hx : x < radix ^ (j + k)) (hw : w < radix ^ k) :
    (numberLimbs radix n x).take j ++ numberLimbs radix k w ++ (numberLimbs radix n x).drop (j + k) =
      numberLimbs radix n (x % radix ^ j + radix ^ j * w) := by
  obtain ⟨m, rfl⟩ := Nat.exists_eq_add_of_le hjk
  have hpos : 0 < radix ^ j := Nat.pow_pos hr
  have hquot : (x % radix ^ j + radix ^ j * w) / radix ^ j = w := by
    rw [Nat.add_mul_div_left _ _ hpos, Nat.div_eq_of_lt (Nat.mod_lt _ hpos), Nat.zero_add]
  have hlow : numberLimbs radix j (x % radix ^ j + radix ^ j * w) = numberLimbs radix j x := by
    rw [← numberLimbs_mod hr, Nat.add_mul_mod_self_left, Nat.mod_mod, numberLimbs_mod hr]
  rw [take_numberLimbs (by omega), drop_numberLimbs, Nat.div_eq_of_lt hx, Nat.add_assoc, numberLimbs_add radix j, hlow, hquot,
    numberLimbs_add radix k, Nat.div_eq_of_lt hw, List.append_assoc]

/-- The number above limb `k - 1` is the number above limb `k` and limb `k` below it. -/
theorem limb_pair_eq (radix k x : Nat) : x / radix ^ (k + 1) * radix + x / radix ^ k % radix = x / radix ^ k := by
  rw [pow_succ, ← Nat.div_div_eq_div_mul, Nat.mul_comm, Nat.div_add_mod]

end Sys2Proof.Machine
end

section
/-! SUPPORT. Algorithm D (43_divide.md R190) by a one-limb divisor: the rolling remainder is the remainder of the dividend's limbs taken so
far. -/

namespace Sys2Proof.Machine

/-- The pair kept is the quotient and the remainder of the limbs taken so far, most significant first; so it is at the end. -/
theorem shortDivide_eq {v : Nat} (hv : 0 < v) (radix : Nat) (us : List Nat) (x : Nat) :
    shortDivide radix v us (x / v, x % v) =
      (us.foldl (fun x u => x * radix + u) x / v, us.foldl (fun x u => x * radix + u) x % v) := by
  induction us generalizing x with
  | nil => rfl
  | cons u us ih =>
    have hsplit : x * radix + u = x % v * radix + u + v * (x / v * radix) := by
      conv_lhs => rw [← Nat.mod_add_div x v]
      ring
    have hrem : (x % v * radix + u) % v = (x * radix + u) % v := by rw [hsplit, Nat.add_mul_mod_self_left]
    have hquot : x / v * radix + (x % v * radix + u) / v = (x * radix + u) / v := by
      rw [hsplit, Nat.add_mul_div_left _ _ hv, Nat.add_comm]
    rw [shortDivide, hquot, hrem, ih, List.foldl_cons]

theorem shortDivide_numberLimbs {radix k u v : Nat} (hv : 0 < v) (hu : u < radix ^ k) :
    shortDivide radix v (numberLimbs radix k u).reverse (0, 0) = (u / v, u % v) := by
  have hrun := shortDivide_eq hv radix (numberLimbs radix k u).reverse 0
  rwa [List.foldl_reverse, ← limbsValue_eq_foldr, limbsValue_numberLimbs_of_lt hu, Nat.zero_div, Nat.zero_mod] at hrun

end Sys2Proof.Machine
end

section
/-! SUPPORT. The trial digit of Algorithm D (43_divide.md R190): the correction loop keeps it at or above the true digit, and ends with a
digit allowed by the two top limbs of the divisor and the three of the window, which is at most one too high. -/

namespace Sys2Proof.Machine

variable {radix vTop vNext uNext num qhat rhat fuel q c b n d w : Nat}

/-! ### The correction loop -/

/-- The loop's test against the second divisor limb is a test against the two top limbs together. -/
theorem overshoots_iff (hnum : qhat * vTop + rhat = num) :
    qhat * vNext > radix * rhat + uNext ↔ qhat * (vTop * radix + vNext) > num * radix + uNext := by
  subst hnum
  constructor <;> intro h <;> linarith

/-- A remainder of `radix` or more ends the loop: no digit in range overshoots then. -/
theorem not_overshoots_of_radix_le (hv : vNext < radix) (hq : qhat ≤ radix + 1) (hr : radix ≤ rhat) :
    ¬qhat * vNext > radix * rhat + uNext := by
  have hsq : (radix + 1) * (radix - 1) ≤ radix * radix := by
    rw [← Nat.sq_sub_sq, pow_two]
    exact Nat.sub_le _ _
  have hprod : qhat * vNext ≤ (radix + 1) * (radix - 1) := Nat.mul_le_mul hq (by omega)
  have hrem : radix * radix ≤ radix * rhat := Nat.mul_le_mul_left radix hr
  omega

/-- One pass of the loop: the digit was above `q`, and the remainder goes with the digit decremented. -/
theorem decremented_digit (hq : q < radix) (hlow : ∀ c, c * (vTop * radix + vNext) > num * radix + uNext → q < c)
    (hnum : qhat * vTop + rhat = num) (htest : qhat ≥ radix ∨ qhat * vNext > radix * rhat + uNext) :
    q ≤ qhat - 1 ∧ (qhat - 1) * vTop + (rhat + vTop) = num := by
  have hlt : q < qhat := htest.elim hq.trans_le fun hover => hlow qhat ((overshoots_iff hnum).1 hover)
  obtain ⟨c, rfl⟩ := Nat.exists_eq_add_of_lt hlt
  exact ⟨by omega, by rw [← hnum, Nat.add_sub_cancel]; ring⟩

/-- The loop decrements while the digit is above `q`, and stops where the two top limbs do not overshoot. -/
theorem correctDigit_spec (hv : vNext < radix) (hq : q < radix)
    (hlow : ∀ c, c * (vTop * radix + vNext) > num * radix + uNext → q < c) (hnum : qhat * vTop + rhat = num)
    (hle : qhat ≤ radix + 1) (hqhat : q ≤ qhat) (hfuel : radix ≤ rhat + fuel * vTop) :
    q ≤ correctDigit radix vTop vNext uNext fuel qhat rhat ∧ correctDigit radix vTop vNext uNext fuel qhat rhat ≤ radix + 1 ∧
    correctDigit radix vTop vNext uNext fuel qhat rhat * (vTop * radix + vNext) ≤ num * radix + uNext := by
  fun_induction correctDigit radix vTop vNext uNext fuel qhat rhat with
  | case1 qhat rhat =>
    have hstop := not_overshoots_of_radix_le (uNext := uNext) hv hle (by simpa using hfuel)
    exact ⟨hqhat, hle, not_lt.1 fun hover => hstop ((overshoots_iff hnum).2 hover)⟩
  | case2 fuel qhat rhat htest hleave =>
    obtain ⟨hge, hnum'⟩ := decremented_digit hq hlow hnum htest
    have hstop := not_overshoots_of_radix_le (uNext := uNext) (qhat := qhat - 1) hv (by omega) hleave
    exact ⟨hge, by omega, not_lt.1 fun hover => hstop ((overshoots_iff hnum').2 hover)⟩
  | case3 fuel qhat rhat htest hgoon ih =>
    obtain ⟨hge, hnum'⟩ := decremented_digit hq hlow hnum htest
    exact ih hnum' (by omega) hge (by rw [Nat.succ_mul] at hfuel; omega)
  | case4 fuel qhat rhat hno =>
    exact ⟨hqhat, hle, not_lt.1 fun hover => hno (.inr ((overshoots_iff hnum).2 hover))⟩

/-! ### The trial digit of a window -/

/-- A divisor `d` of `n` limbs after R190's shift: its top limb is at least half the radix. -/
structure Normalised (radix n d : Nat) : Prop where
  lt : d < radix ^ n
  top : radix ≤ 2 * (d / radix ^ (n - 1))

theorem Normalised.pos (hd : Normalised radix n d) (hr : 0 < radix) : 0 < d := by
  have htop := hd.top
  exact Nat.pos_of_ne_zero fun h0 => by simp [h0] at htop; omega

/-- The trial digit that `divideDigit` forms for a window of value `w` over the divisor `d` (`divideDigit_numberLimbs`). -/
def trialDigit (radix n d w : Nat) : Nat :=
  correctDigit radix (d / radix ^ (n - 1)) (d / radix ^ (n - 2) % radix) (w / radix ^ (n - 2) % radix) radix
    (w / radix ^ (n - 1) / (d / radix ^ (n - 1))) (w / radix ^ (n - 1) % (d / radix ^ (n - 1)))

/-- Leading limbs alone never make the true digit overshoot. -/
theorem quotient_mul_leading_le (hd : 0 < d) (w b : Nat) : w / d * (d / b) ≤ w / b :=
  calc w / d * (d / b) ≤ w * d / (d * b) := Nat.div_mul_div_le w d d b
    _ = w / b := by rw [Nat.mul_comm w d, Nat.mul_div_mul_left _ _ hd]

/-- Before any correction, the quotient of the leading limbs is at most one past the radix, by a leading limb of half the radix. -/
theorem leading_quotient_le (hb : 0 < b) (htop : radix ≤ 2 * (d / b)) (hw : w < radix * d) :
    w / b / (d / b) ≤ radix + 1 := by
  have hnum : w / b < radix * (d / b + 1) := Nat.div_lt_of_lt_mul <|
    calc w < radix * d := hw
      _ ≤ radix * (b * (d / b + 1)) := Nat.mul_le_mul_left _ (Nat.lt_mul_div_succ d hb).le
      _ = b * (radix * (d / b + 1)) := Nat.mul_left_comm _ _ _
  exact Nat.le_of_lt_succ (Nat.div_lt_of_lt_mul (by linarith))

/-- A digit that the leading limbs allow, and that is not above the divisor's leading limbs, is at most one too high. -/
theorem le_quotient_add_one (hc : c * (d / b) ≤ w / b) (hle : c ≤ d / b) : c ≤ w / d + 1 := by
  cases c with
  | zero => exact Nat.zero_le _
  | succ e =>
    obtain ⟨hb, hbd⟩ := Nat.div_pos_iff.1 (Nat.zero_lt_of_lt hle)
    have hover : (e + 1) * d ≤ w + d :=
      calc (e + 1) * d ≤ (e + 1) * (b * (d / b + 1)) := Nat.mul_le_mul_left _ (Nat.lt_mul_div_succ d hb).le
        _ = (e + 1) * (d / b) * b + (e + 1) * b := by ring
        _ ≤ w + d := Nat.add_le_add (Nat.mul_le_of_le_div _ _ _ hc) (Nat.mul_le_of_le_div _ _ _ hle)
    rw [Nat.succ_mul] at hover
    exact Nat.succ_le_succ ((Nat.le_div_iff_mul_le (by omega)).2 (by omega))

/-- The trial digit is the true digit or one more (43_divide.md R190: at most one borrow-correction). -/
theorem trialDigit_bounds (hr : 4 ≤ radix) (hn : 2 ≤ n) (hd : Normalised radix n d) (hw : w < radix * d) :
    w / d ≤ trialDigit radix n d w ∧ trialDigit radix n d w ≤ w / d + 1 := by
  obtain ⟨m, rfl⟩ := Nat.exists_eq_add_of_le' hn
  have htop : radix ≤ 2 * (d / radix ^ (m + 1)) := hd.top
  have hleading := quotient_mul_leading_le (hd.pos (by omega)) w
  have hq : w / d < radix := Nat.div_lt_of_lt_mul (Nat.mul_comm radix d ▸ hw)
  have hle := leading_quotient_le (Nat.pow_pos (by omega)) htop hw
  have hge : w / d ≤ w / radix ^ (m + 1) / (d / radix ^ (m + 1)) := (Nat.le_div_iff_mul_le (by omega)).2 (hleading _)
  have hfuel : radix ≤ w / radix ^ (m + 1) % (d / radix ^ (m + 1)) + radix * (d / radix ^ (m + 1)) :=
    (Nat.le_mul_of_pos_right radix (by omega)).trans (Nat.le_add_left _ _)
  have hpair := limb_pair_eq radix m
  have hspec := correctDigit_spec (vNext := d / radix ^ m % radix) (uNext := w / radix ^ m % radix) (Nat.mod_lt _ (by omega)) hq
    (fun c hover => ?_) (Nat.div_add_mod' _ _) hle hge hfuel
  · obtain ⟨hlow, hhigh, hstop⟩ := hspec
    have hsmall : radix + 1 ≤ d / radix ^ m := by
      rw [← hpair]
      exact (by nlinarith : radix + 1 ≤ d / radix ^ (m + 1) * radix).trans (Nat.le_add_right _ _)
    rw [hpair, hpair] at hstop
    exact ⟨hlow, le_quotient_add_one hstop (hhigh.trans hsmall)⟩
  · rw [hpair, hpair] at hover
    by_contra hc
    exact hover.not_ge ((Nat.mul_le_mul_right _ (not_lt.1 hc)).trans (hleading _))

end Sys2Proof.Machine
end

section
/-! SUPPORT. The main loop of Algorithm D (43_divide.md R190): each pass makes one digit of the quotient, and leaves the remainder by
the divisor shifted to that digit. -/

namespace Sys2Proof.Machine

variable {radix n d w x q c j L : Nat}

/-! ### One pass -/

/-- The two top limbs of the window from limb `j` on. -/
theorem window_top_limbs (hn : 1 ≤ n) (hL : j + (n + 1) ≤ L) (hx : x < radix ^ (j + (n + 1))) :
    (numberLimbs radix L x).getD (j + n) 0 * radix + (numberLimbs radix L x).getD (j + n - 1) 0 =
      x / radix ^ j / radix ^ (n - 1) := by
  obtain ⟨m, rfl⟩ := Nat.exists_eq_add_of_le' hn
  have htop : x / radix ^ (j + (m + 1)) < radix := Nat.div_lt_of_lt_mul (by rwa [← pow_succ])
  rw [getD_numberLimbs (by omega), getD_numberLimbs (by omega), Nat.mod_eq_of_lt htop, Nat.div_div_eq_div_mul, ← pow_add]
  exact limb_pair_eq radix (j + m) x

/-- The limb below the two top limbs of the window from limb `j` on. -/
theorem window_next_limb (hn : 2 ≤ n) (hL : j + (n + 1) ≤ L) :
    (numberLimbs radix L x).getD (j + n - 2) 0 = x / radix ^ j / radix ^ (n - 2) % radix := by
  rw [getD_numberLimbs (by omega), Nat.div_div_eq_div_mul, ← pow_add, Nat.add_sub_assoc hn]

/-- Borrow-correction: from a trial digit at most one too high, the true digit and the remainder. -/
theorem borrow_correct (hd : 0 < d) (hlow : w / d ≤ c) (hhigh : c ≤ w / d + 1) :
    (if w < c * d then c - 1 else c) = w / d ∧ (if w < c * d then w + d - c * d else w - c * d) = w % d := by
  have hw : w / d * d + w % d = w := Nat.div_add_mod' w d
  have hmod : w % d < d := Nat.mod_lt w hd
  generalize w / d = e at *
  rcases Nat.eq_or_lt_of_le hlow with rfl | hlt
  · rw [if_neg (by omega), if_neg (by omega)]
    omega
  · obtain rfl : c = e + 1 := by omega
    rw [Nat.succ_mul, if_pos (by omega), if_pos (by omega)]
    omega

/-- One pass on the limbs of a dividend `x` below the divisor shifted one digit further. -/
theorem divideDigit_numberLimbs (hr : 4 ≤ radix) (hn : 2 ≤ n) (hd : Normalised radix n d) (hL : j + (n + 1) ≤ L)
    (hx : x < radix ^ (j + 1) * d) :
    divideDigit radix n (numberLimbs radix n d) j (numberLimbs radix L x, q) =
      (numberLimbs radix L (x % (radix ^ j * d)), q * radix + x / (radix ^ j * d)) := by
  have hr0 : 0 < radix := by omega
  have hw : x / radix ^ j < radix * d := Nat.div_lt_of_lt_mul (by rwa [← Nat.mul_assoc, ← pow_succ])
  have hwindow : x < radix ^ (j + (n + 1)) :=
    calc x < radix ^ (j + 1) * d := hx
      _ ≤ radix ^ (j + 1) * radix ^ n := Nat.mul_le_mul_left _ hd.lt.le
      _ = radix ^ (j + (n + 1)) := by rw [← pow_add]; congr 1; omega
  have hleft : x / radix ^ j % d < radix ^ (n + 1) :=
    ((Nat.mod_lt _ (hd.pos hr0)).trans hd.lt).trans_le (Nat.pow_le_pow_right hr0 (Nat.le_succ n))
  obtain ⟨hlow, hhigh⟩ := trialDigit_bounds hr hn hd hw
  obtain ⟨hdigit, hrem⟩ := borrow_correct (hd.pos hr0) hlow hhigh
  rw [trialDigit] at hdigit hrem
  simp only [divideDigit]
  rw [getD_top_limb (by omega) le_rfl hd.lt, getD_numberLimbs (by omega), window_top_limbs (by omega) hL hwindow,
    window_next_limb hn hL, Nat.add_assoc j, limbsValue_take_drop_numberLimbs hL hwindow, limbsValue_numberLimbs_of_lt hd.lt, hdigit, hrem,
    numberLimbs_replace_window hr0 hL hwindow hleft, ← Nat.mod_mul, Nat.div_div_eq_div_mul]

/-! ### All passes -/

/-- The passes from digit `j - 1` down to 0. -/
theorem divideDigits_numberLimbs (hr : 4 ≤ radix) (hn : 2 ≤ n) (hd : Normalised radix n d) (hL : j ≤ L - n)
    (hx : x < radix ^ j * d) :
    divideDigits radix n (numberLimbs radix n d) j (numberLimbs radix L x, q) =
      (numberLimbs radix L (x % d), q * radix ^ j + x / d) := by
  induction j generalizing x q with
  | zero =>
    rw [pow_zero, Nat.one_mul] at hx
    simp [divideDigits, Nat.mod_eq_of_lt hx, Nat.div_eq_of_lt hx]
  | succ j ih =>
    have hpos : 0 < radix ^ j * d := Nat.mul_pos (Nat.pow_pos (by omega)) (hd.pos (by omega))
    have hquot : x / (radix ^ j * d) * radix ^ j + x % (radix ^ j * d) / d = x / d := by
      rw [Nat.mod_mul_left_div_self, Nat.mul_comm (radix ^ j) d, ← Nat.div_div_eq_div_mul, Nat.div_add_mod']
    rw [divideDigits, divideDigit_numberLimbs hr hn hd (by omega) hx, ih (by omega) (Nat.mod_lt _ hpos), Nat.mod_mul_left_mod,
      Nat.add_mul, Nat.add_assoc, hquot, pow_succ', Nat.mul_assoc]

end Sys2Proof.Machine
end

section
/-! SUPPORT. Normalisation in Algorithm D (43_divide.md R190): the significant limbs of the divisor and the leading zeros of its top limb. -/

namespace Sys2Proof.Machine

variable {radix k n v t : Nat} {ls : List Nat}

theorem sigLimbs_le_length (ls : List Nat) : sigLimbs ls ≤ ls.length := by
  induction ls with
  | nil => rfl
  | cons l ls ih => rw [sigLimbs, List.length_cons]; split_ifs <;> omega

theorem limbsValue_lt_pow_sigLimbs (h : ∀ l ∈ ls, l < radix) : limbsValue radix ls < radix ^ sigLimbs ls := by
  induction ls with
  | nil => simp [limbsValue, sigLimbs]
  | cons l ls ih =>
    obtain ⟨hl, hls⟩ := List.forall_mem_cons.1 h
    have hrest := ih hls
    rw [sigLimbs, limbsValue_cons]
    split_ifs with hsig hzero
    · rw [pow_succ']
      nlinarith
    · rw [not_not.1 hsig, pow_zero, Nat.lt_one_iff] at hrest
      simpa [hrest] using hl
    · rw [not_not.1 hsig, pow_zero, Nat.lt_one_iff] at hrest
      simp [hrest, not_not.1 hzero]

theorem pow_sigLimbs_le_limbsValue (h : 0 < sigLimbs ls) : radix ^ (sigLimbs ls - 1) ≤ limbsValue radix ls := by
  induction ls with
  | nil => cases h
  | cons l ls ih =>
    rw [sigLimbs] at h ⊢
    rw [limbsValue_cons]
    split_ifs at h ⊢ with hsig hzero
    · obtain ⟨m, hm⟩ := Nat.exists_eq_succ_of_ne_zero hsig
      have hrest := ih (Nat.pos_of_ne_zero hsig)
      rw [hm] at hrest ⊢
      exact (pow_succ' radix m ▸ Nat.mul_le_mul_left radix hrest).trans (Nat.le_add_left _ _)
    · simp only [Nat.sub_self, pow_zero]
      omega
    · cases h

/-- R190's shift by the leading zeros of a nonzero `k`-bit field keeps it `k` bits and sets its top bit. -/
theorem leadingZeros_spec (ht : t ≠ 0) (hlt : t < 2 ^ k) :
    (t + 1) * 2 ^ leadingZeros k t ≤ 2 ^ k ∧ 2 ^ k ≤ 2 * (t * 2 ^ leadingZeros k t) := by
  induction k with
  | zero => omega
  | succ k ih =>
    rw [leadingZeros]
    split
    next hsmall =>
      obtain ⟨hhi, hlo⟩ := ih hsmall
      rw [pow_succ, pow_succ]
      constructor <;> linarith
    next hbig =>
      rw [pow_succ] at hlt ⊢
      omega

/-- R190's `n`: the significant limbs of a nonzero number of at most `k` limbs. -/
theorem sigLimbs_numberLimbs (hr : 0 < radix) (hv : 1 ≤ v) (hvk : v < radix ^ k) :
    (1 ≤ sigLimbs (numberLimbs radix k v) ∧ sigLimbs (numberLimbs radix k v) ≤ k) ∧
    radix ^ (sigLimbs (numberLimbs radix k v) - 1) ≤ v ∧ v < radix ^ sigLimbs (numberLimbs radix k v) := by
  have hvalue : limbsValue radix (numberLimbs radix k v) = v := limbsValue_numberLimbs_of_lt hvk
  have hlen := sigLimbs_le_length (numberLimbs radix k v)
  have hhi := limbsValue_lt_pow_sigLimbs (numberLimbs_lt hr k v)
  rw [length_numberLimbs] at hlen
  rw [hvalue] at hhi
  have hpos : 0 < sigLimbs (numberLimbs radix k v) := Nat.pos_of_ne_zero fun h0 => by
    rw [h0, pow_zero] at hhi
    omega
  exact ⟨⟨hpos, hlen⟩, (pow_sigLimbs_le_limbsValue hpos).trans_eq hvalue, hhi⟩

/-- A divisor of `n` limbs, shifted by the leading zeros of its top limb, is normalised. -/
theorem normalised_shift (p : Params) (hn : 1 ≤ n) (hlo : p.radix ^ (n - 1) ≤ v) (hhi : v < p.radix ^ n) :
    Normalised p.radix n (v * 2 ^ leadingZeros p.LB (v / p.radix ^ (n - 1))) ∧
    2 ^ leadingZeros p.LB (v / p.radix ^ (n - 1)) ≤ p.radix := by
  have hpos : 0 < p.radix ^ (n - 1) := Nat.pow_pos (Nat.two_pow_pos _)
  have hpow : p.radix ^ n = p.radix ^ (n - 1) * p.radix := by rw [← pow_succ, Nat.sub_add_cancel hn]
  have htop : v / p.radix ^ (n - 1) < p.radix := Nat.div_lt_of_lt_mul (hpow ▸ hhi)
  obtain ⟨hup, hhalf⟩ := leadingZeros_spec (Nat.div_pos hlo hpos).ne' htop
  have hv : v < p.radix ^ (n - 1) * (v / p.radix ^ (n - 1) + 1) := Nat.lt_mul_div_succ v hpos
  have hv' : v / p.radix ^ (n - 1) * p.radix ^ (n - 1) ≤ v := Nat.div_mul_le_self v _
  have hm : 0 < 2 ^ leadingZeros p.LB (v / p.radix ^ (n - 1)) := Nat.two_pow_pos _
  generalize v / p.radix ^ (n - 1) = t at *
  generalize 2 ^ leadingZeros p.LB t = m at *
  refine ⟨⟨?_, hhalf.trans (Nat.mul_le_mul_left 2 ?_)⟩, (Nat.le_mul_of_pos_left m (Nat.succ_pos t)).trans hup⟩
  · calc v * m < p.radix ^ (n - 1) * (t + 1) * m := Nat.mul_lt_mul_of_pos_right hv hm
      _ = p.radix ^ (n - 1) * ((t + 1) * m) := Nat.mul_assoc _ _ _
      _ ≤ p.radix ^ n := hpow ▸ Nat.mul_le_mul_left _ hup
  · rw [Nat.le_div_iff_mul_le hpos, Nat.mul_right_comm]
    exact Nat.mul_le_mul_right m hv'

end Sys2Proof.Machine
end

section
/-! SUPPORT. The magnitude divider (43_divide.md R190, O33): Algorithm D divides exactly. -/

namespace Sys2Proof.Machine

variable {p : Params} {u ulen v : Nat}

/-- The rolling-remainder division, by a divisor of one limb. -/
theorem divmag_of_one_limb (hu : u < p.radix ^ ulen) (hN : 1 ≤ p.N) (hv : 1 ≤ v) (hvr : v < p.radix)
    (hn : sigLimbs (numberLimbs p.radix p.N v) ≤ 1) : divmag p u ulen v = (u / v, u % v) := by
  rw [divmag, if_pos hn, headD_numberLimbs hN, Nat.mod_eq_of_lt hvr, shortDivide_numberLimbs hv hu]

/-- The main loop, by a divisor of two limbs or more. -/
theorem divmag_of_more_limbs (hLB : 2 ≤ p.LB) (hu : u < p.radix ^ ulen) (hv : 1 ≤ v) (hvN : v < p.radix ^ p.N)
    (hn : 1 < sigLimbs (numberLimbs p.radix p.N v)) : divmag p u ulen v = (u / v, u % v) := by
  have hr : 4 ≤ p.radix := Nat.pow_le_pow_right (n := 2) (by decide) hLB
  obtain ⟨⟨hpos, hnN⟩, hlo, hhi⟩ := sigLimbs_numberLimbs (by omega) hv hvN
  obtain ⟨hnorm, hshift⟩ := normalised_shift p hpos hlo hhi
  rw [divmag, if_neg (not_le.2 hn)]
  dsimp only
  rw [getD_top_limb hpos hnN hhi]
  generalize sigLimbs (numberLimbs p.radix p.N v) = n at *
  have hm : 0 < 2 ^ leadingZeros p.LB (v / p.radix ^ (n - 1)) := by positivity
  generalize 2 ^ leadingZeros p.LB (v / p.radix ^ (n - 1)) = m at *
  have hdividend : u * m < p.radix ^ (ulen + 1) := pow_succ p.radix ulen ▸ Nat.mul_lt_mul_of_lt_of_le hu hshift (by omega)
  have hbelow : u * m < p.radix ^ (ulen + 1 - n) * (v * m) := by
    rw [← Nat.mul_assoc]
    refine Nat.mul_lt_mul_of_pos_right ?_ hm
    calc u < p.radix ^ ulen := hu
      _ ≤ p.radix ^ (ulen + 1 - n + (n - 1)) := Nat.pow_le_pow_right (by omega) (by omega)
      _ ≤ p.radix ^ (ulen + 1 - n) * v := pow_add p.radix _ _ ▸ Nat.mul_le_mul_left _ hlo
  have hrem : u * m % (v * m) < p.radix ^ n := (Nat.mod_lt _ (Nat.mul_pos hv hm)).trans hnorm.lt
  rw [divideDigits_numberLimbs hr hn hnorm le_rfl hbelow, Nat.zero_mul, Nat.zero_add, Nat.mul_div_mul_right _ _ hm,
    limbsValue_take_numberLimbs hrem ((Nat.mod_le _ _).trans_lt hdividend), Nat.mul_mod_mul_right, Nat.mul_div_cancel _ hm]

/-- Settles O33: a divisor of one limb takes the rolling-remainder division, any other the main loop. -/
theorem algorithmDIsFloorDivision : Obligations.AlgorithmDIsFloorDivision := by
  intro p u ulen v hp hu hv hvN
  obtain ⟨⟨⟨⟨⟨hLB, hN⟩, -⟩, -⟩, -⟩, -⟩ := Params.legal_iff.1 hp
  have hr : 0 < p.radix := by have := Params.one_lt_radix hp; omega
  rcases Nat.lt_or_ge 1 (sigLimbs (numberLimbs p.radix p.N v)) with hmany | hone
  · exact divmag_of_more_limbs (by omega) hu hv hvN hmany
  · obtain ⟨-, -, hhi⟩ := sigLimbs_numberLimbs hr hv hvN
    have hlt : v < p.radix := hhi.trans_le ((Nat.pow_le_pow_right hr hone).trans_eq (pow_one _))
    exact divmag_of_one_limb hu (by omega) hv hlt hone

end Sys2Proof.Machine
end

section
/-! SUPPORT. The instructions of 43_divide.md: DIV (O34) and FDIV (O35). -/

namespace Sys2Proof.Machine

variable {s : State} {i : Instr} {d a b : WReg} {p : Params} {x y v : Int} {q ulen shift : Nat}

/-! ### Signs, zero, and a signed quotient -/

theorem withSign_quotient (sg tg : Bool) (q r : Nat) :
    withSign (Bool.xor sg tg) (q / r) = (withSign sg q).tdiv (withSign tg r) := by
  cases sg <;> cases tg <;> simp [withSign, Int.neg_tdiv, Int.tdiv_neg]

theorem iszero_iff_sval (p : Params) (x : Wide) : iszero p x = true ↔ sval p x = 0 := by
  refine (iszero_iff p x).trans ⟨sval_eq_zero_of_uval p x, fun h => ?_⟩
  have hlt : (uval p x : Int) < 2 ^ p.W := by exact_mod_cast uval_lt p x
  rw [sval] at h
  split at h <;> omega

/-- The divider on a dividend's magnitude `q` and `W[b]`'s, with the sign of R192, gives the quotient rounded toward zero. -/
theorem withSign_divmag (hp : s.params.legal = true) (a b : WReg) (hb : sval s.params (s.readW b) ≠ 0)
    (hq : q < s.params.radix ^ ulen) :
    withSign (s.signXor a b) (divmag s.params q ulen (mag s.params (s.readW b))).1 =
      (withSign (isneg s.params (s.readW a)) q).tdiv (sval s.params (s.readW b)) := by
  have hpos : 1 ≤ mag s.params (s.readW b) := by
    have habs := abs_pos.2 hb
    rw [← mag_eq_abs_sval hp (s.readW_lt b)] at habs
    omega
  have hlt : mag s.params (s.readW b) < s.params.radix ^ s.params.N := Params.radix_pow_N _ ▸ mag_lt hp (s.readW_lt b)
  rw [algorithmDIsFloorDivision s.params q ulen _ hp hq hpos hlt, State.signXor, withSign_quotient, withSign_mag hp (s.readW_lt b)]

/-- How DIV and FDIV end once the divisor test is passed: with the quotient of the dividend `v`, or with OVERFLOW where it does not fit. -/
theorem quotientResult (hp : s.params.legal = true) (hb : sval s.params (s.readW b) ≠ 0) (hq : q < s.params.radix ^ ulen)
    (hexec : ¬iszero s.params (s.readW b) = true → exec i s =
      s.signedResult d a b shift (divmag s.params q ulen (mag s.params (s.readW b))).1 (s.signXor a b))
    (hv : withSign (isneg s.params (s.readW a)) q = v) :
    (fitsW s.params (v.tdiv (sval s.params (s.readW b))) →
      WideResult i s d fun w => sval s.params w = v.tdiv (sval s.params (s.readW b))) ∧
    (¬fitsW s.params (v.tdiv (sval s.params (s.readW b))) →
      exec i s = .next (s.raiseFault .overflow (arithInfo d a b shift))) :=
  signedResult_exact hp (hexec fun h => hb ((iszero_iff_sval _ _).1 h)) (hv ▸ withSign_divmag hp a b hb hq)

/-! ### DIV -/

/-- The quotient's range (43_divide.md R192): only MIN / -1 leaves it. -/
theorem fitsW.tdiv (hx : fitsW p x) (hy : y ≠ 0) (hne : ¬(x = -(2 : Int) ^ (p.W - 1) ∧ y = -1)) : fitsW p (x.tdiv y) := by
  obtain ⟨hlo, hhi⟩ := hx
  have hpos : (0 : Int) < 2 ^ (p.W - 1) := by positivity
  have habs : (x.tdiv y).natAbs = x.natAbs / y.natAbs := Int.natAbs_tdiv x y
  rw [fitsW]
  generalize (2 : Int) ^ (p.W - 1) = m at *
  by_cases hmin : x = -m
  · rcases eq_or_ne y 1 with rfl | hone
    · rw [Int.tdiv_one]
      exact ⟨hlo, hhi⟩
    · have hlt : x.natAbs / y.natAbs < x.natAbs := Nat.div_lt_self (by omega) (by omega)
      omega
  · have hle : x.natAbs / y.natAbs ≤ x.natAbs := Nat.div_le_self _ _
    omega

theorem not_fitsW_min_tdiv (p : Params) : ¬fitsW p ((-(2 : Int) ^ (p.W - 1)).tdiv (-1)) := by
  rw [fitsW, Int.tdiv_neg, Int.tdiv_one, neg_neg]
  exact fun h => lt_irrefl _ h.2

/-- Settles O34: the divisor test comes first, and of the quotients only MIN / -1 does not fit. -/
theorem divResult : Obligations.DivResult := by
  intro s d a b hp x y
  have hdiv (hy : y ≠ 0) := quotientResult (i := .div d a b) (shift := 0) hp hy (Params.radix_pow_N _ ▸ mag_lt hp (s.readW_lt a))
    (fun h => if_neg h) (withSign_mag hp (s.readW_lt a))
  refine ⟨fun hy => if_pos ((iszero_iff_sval _ _).2 hy), fun hy hne => ?_, fun hx hy => ?_⟩
  · exact (hdiv hy).1 ((fitsW_sval hp _).tdiv hy hne)
  · have hover : ¬fitsW s.params (x.tdiv y) := by
      rw [hx, hy]
      exact not_fitsW_min_tdiv s.params
    exact (hdiv (by omega)).2 hover

/-! ### FDIV -/

/-- The dividend shifted left by SL limbs has N + SL limbs (43_divide.md R193). -/
theorem mag_shifted_lt (hp : s.params.legal = true) (a : WReg) :
    mag s.params (s.readW a) * 2 ^ s.params.FB < s.params.radix ^ (s.params.N + s.params.SL) := by
  have hFB : s.params.radix ^ s.params.SL = 2 ^ s.params.FB := (Nat.pow_mul _ _ _).symm
  rw [pow_add, Params.radix_pow_N, hFB]
  exact Nat.mul_lt_mul_of_pos_right (mag_lt hp (s.readW_lt a)) (Nat.two_pow_pos _)

theorem withSign_mag_shifted (hp : s.params.legal = true) (a : WReg) :
    withSign (isneg s.params (s.readW a)) (mag s.params (s.readW a) * 2 ^ s.params.FB) =
      sval s.params (s.readW a) * 2 ^ s.params.FB := by
  have hmul := withSign_mul (isneg s.params (s.readW a)) false (mag s.params (s.readW a)) (2 ^ s.params.FB)
  rw [Bool.xor_false, withSign_mag hp (s.readW_lt a)] at hmul
  rw [hmul]
  norm_cast

/-- Settles O35: the divisor test comes first, and the widened quotient's magnitude and sign are what FDIV ends with. -/
theorem fdivResult : Obligations.FdivResult := by
  intro s d a b hp y v
  have hfdiv (hy : y ≠ 0) := quotientResult (i := .fdiv d a b) (shift := s.params.FB) hp hy (mag_shifted_lt hp a)
    (fun h => if_neg h) (withSign_mag_shifted hp a)
  exact ⟨fun hy => if_pos ((iszero_iff_sval _ _).2 hy), fun hy => (hfdiv hy).1, fun hy => (hfdiv hy).2⟩

end Sys2Proof.Machine
end

section
/-! SUPPORT. The guesses of 44_sqrt.md R211, as integers: one pass with exact floor divisions keeps them between floor(sqrt(V)) and any bound
above it, and shrinks what a guess exceeds floor(sqrt(V)) + 1 by, at least to a half and quadratically (R214 items 1 and 3). -/

namespace Sys2Proof.Machine

variable {v g b k : Nat}

/-- The new guess `(g + V // g) // 2` of R211, both divisions exact. -/
def newtonPass (v g : Nat) : Nat := (g + v / g) / 2

/-- What a guess exceeds `floor(sqrt(V)) + 1` by. -/
def rootExcess (v g : Nat) : Nat := g - (Nat.sqrt v + 1)

theorem rootExcess_eq_zero_iff : rootExcess v g = 0 ↔ g ≤ Nat.sqrt v + 1 := Nat.sub_eq_zero_iff_le

/-- Leaving at the first pass that does not change the guess gives what all the passes give: the guess is then a fixed point. -/
theorem exactRootLoop_eq_iterate (v fuel g : Nat) : exactRootLoop v fuel g = (newtonPass v)^[fuel] g := by
  induction fuel generalizing g with
  | zero => rfl
  | succ fuel ih =>
    rw [exactRootLoop]
    split
    next hfixed => exact (Function.iterate_fixed (f := newtonPass v) hfixed (fuel + 1)).symm
    next => exact ih _

/-! ### One pass -/

/-- The integer inequality of the two means (R211): no guess falls below floor(sqrt(V)). -/
theorem sqrt_le_newtonPass (hg : 1 ≤ g) (v : Nat) : Nat.sqrt v ≤ newtonPass v g := by
  have hr := Nat.sqrt_le v
  have hquot : 2 * Nat.sqrt v - g ≤ v / g := by
    rw [Nat.le_div_iff_mul_le hg]
    rcases le_total (2 * Nat.sqrt v) g with hle | hle
    · simp [Nat.sub_eq_zero_of_le hle]
    · zify [hle] at hr ⊢
      nlinarith [sq_nonneg ((Nat.sqrt v : Int) - g)]
  rw [newtonPass]
  omega

/-- The error recurrence of R214 about `R = floor(sqrt(V)) + 1`: `2 * g * (g' - R) < (g - R)^2`, as `V < R^2`. -/
theorem newtonPass_error (v g : Nat) :
    2 * (g : Int) * (newtonPass v g - (Nat.sqrt v + 1)) < (g - (Nat.sqrt v + 1)) ^ 2 := by
  have hroot : (v : Int) < (Nat.sqrt v + 1) * (Nat.sqrt v + 1) := by exact_mod_cast Nat.lt_succ_sqrt v
  have hpass : (2 * newtonPass v g : Int) ≤ g + (v / g : Nat) := by exact_mod_cast Nat.mul_div_le (g + v / g) 2
  have hquot : (g : Int) * (v / g : Nat) ≤ v := by exact_mod_cast Nat.mul_div_le v g
  have hscaled := mul_le_mul_of_nonneg_left hpass (Int.natCast_nonneg g)
  calc 2 * (g : Int) * (newtonPass v g - (Nat.sqrt v + 1))
      = g * (2 * newtonPass v g) - 2 * g * (Nat.sqrt v + 1) := by ring
    _ ≤ g ^ 2 + v - 2 * g * (Nat.sqrt v + 1) := by linarith
    _ < g ^ 2 + (Nat.sqrt v + 1) * (Nat.sqrt v + 1) - 2 * g * (Nat.sqrt v + 1) := by linarith
    _ = (g - (Nat.sqrt v + 1)) ^ 2 := by ring

/-- From a guess of at least floor(sqrt(V)), the recurrence in natural numbers. -/
theorem rootExcess_newtonPass (hg : Nat.sqrt v ≤ g) : 2 * g * rootExcess v (newtonPass v g) ≤ rootExcess v g ^ 2 := by
  have herror := newtonPass_error v g
  rcases le_total (newtonPass v g) (Nat.sqrt v + 1) with hle | hle
  · simp [rootExcess_eq_zero_iff.2 hle]
  · unfold rootExcess
    rcases hg.eq_or_lt with rfl | hR
    · rw [sub_add_cancel_left, neg_one_sq] at herror
      rw [Nat.sub_eq_zero_of_le (Nat.le_succ _)]
      zify [hle]
      omega
    · zify [hle, Nat.succ_le_of_lt hR]
      exact herror.le

theorem two_mul_rootExcess_newtonPass (hv : 1 ≤ v) (hg : Nat.sqrt v ≤ g) :
    2 * rootExcess v (newtonPass v g) ≤ rootExcess v g := by
  have hpos : 0 < g := (Nat.sqrt_pos.2 hv).trans_le hg
  have hle : rootExcess v g ≤ g := Nat.sub_le _ _
  refine Nat.le_of_mul_le_mul_left ?_ hpos
  calc g * (2 * rootExcess v (newtonPass v g)) = 2 * g * rootExcess v (newtonPass v g) := by ring
    _ ≤ rootExcess v g ^ 2 := rootExcess_newtonPass hg
    _ ≤ g * rootExcess v g := sq (rootExcess v g) ▸ Nat.mul_le_mul_right _ hle

/-- Quadratic convergence, relative to twice floor(sqrt(V)) + 1. -/
theorem rootExcess_newtonPass_sq (hv : 1 ≤ v) (hg : Nat.sqrt v ≤ g) :
    2 * (Nat.sqrt v + 1) * rootExcess v (newtonPass v g) ≤ rootExcess v g ^ 2 := by
  rcases Nat.lt_or_ge g (Nat.sqrt v + 1) with hlt | hR
  · have hhalf := two_mul_rootExcess_newtonPass hv hg
    rw [rootExcess_eq_zero_iff.2 hlt.le] at hhalf
    simp [show rootExcess v (newtonPass v g) = 0 by omega]
  · exact (Nat.mul_le_mul_right _ (Nat.mul_le_mul_left 2 hR)).trans (rootExcess_newtonPass hg)

/-! ### All the passes -/

/-- Guesses stay between floor(sqrt(V)) and any bound above it (R214 item 1). -/
theorem newtonPass_mapsTo (hv : 1 ≤ v) (hb : Nat.sqrt v < b) :
    Set.MapsTo (newtonPass v) (Set.Icc (Nat.sqrt v) b) (Set.Icc (Nat.sqrt v) b) := by
  rintro g ⟨hlo, hhi⟩
  have hhalf := two_mul_rootExcess_newtonPass hv hlo
  refine ⟨sqrt_le_newtonPass ((Nat.sqrt_pos.2 hv).trans_le hlo) v, ?_⟩
  unfold rootExcess at hhalf
  omega

theorem sqrt_le_iterate (hv : 1 ≤ v) (hg : Nat.sqrt v ≤ g) (n : Nat) : Nat.sqrt v ≤ (newtonPass v)^[n] g :=
  ((newtonPass_mapsTo hv (b := g + 1) (by omega)).iterate n ⟨hg, Nat.le_succ g⟩).1

/-- The slow passes: each takes at least half of the excess. -/
theorem two_pow_mul_rootExcess_iterate (hv : 1 ≤ v) (hg : Nat.sqrt v ≤ g) (n : Nat) :
    2 ^ n * rootExcess v ((newtonPass v)^[n] g) ≤ rootExcess v g := by
  induction n with
  | zero => simp
  | succ n ih =>
    rw [Function.iterate_succ_apply', pow_succ, Nat.mul_assoc]
    exact (Nat.mul_le_mul_left _ (two_mul_rootExcess_newtonPass hv (sqrt_le_iterate hv hg n))).trans ih

/-- The fast passes: from an excess of at most `R = floor(sqrt(V)) + 1`, `n` passes leave at most `2 * R / 2^(2^n)`. -/
theorem two_pow_two_pow_mul_rootExcess_iterate (hv : 1 ≤ v) (hg : Nat.sqrt v ≤ g) (hR : rootExcess v g ≤ Nat.sqrt v + 1)
    (n : Nat) : 2 ^ 2 ^ n * rootExcess v ((newtonPass v)^[n] g) ≤ 2 * (Nat.sqrt v + 1) := by
  induction n with
  | zero => exact Nat.mul_le_mul_left 2 hR
  | succ n ih =>
    have hpass := rootExcess_newtonPass_sq hv (sqrt_le_iterate hv hg n)
    rw [← Function.iterate_succ_apply' (newtonPass v)] at hpass
    refine Nat.le_of_mul_le_mul_left ?_ (show 0 < 2 * (Nat.sqrt v + 1) by omega)
    calc 2 * (Nat.sqrt v + 1) * (2 ^ 2 ^ (n + 1) * rootExcess v ((newtonPass v)^[n + 1] g))
        = (2 ^ 2 ^ n) ^ 2 * (2 * (Nat.sqrt v + 1) * rootExcess v ((newtonPass v)^[n + 1] g)) := by
          rw [pow_succ, pow_mul]
          ring
      _ ≤ (2 ^ 2 ^ n * rootExcess v ((newtonPass v)^[n] g)) ^ 2 := mul_pow (2 ^ 2 ^ n) _ 2 ▸ Nat.mul_le_mul_left _ hpass
      _ ≤ 2 * (Nat.sqrt v + 1) * (2 * (Nat.sqrt v + 1)) := sq (2 * (Nat.sqrt v + 1)) ▸ Nat.pow_le_pow_left ih 2

/-! ### The end of the iteration -/

/-- Only from floor(sqrt(V)) itself, and only where V + 1 is a perfect square, does a pass give floor(sqrt(V)) + 1 (R214 item 1). -/
theorem succ_eq_sq_of_newtonPass_eq (hv : 1 ≤ v) (hlo : Nat.sqrt v ≤ g) (hhi : g ≤ Nat.sqrt v + 1)
    (hpass : newtonPass v g = Nat.sqrt v + 1) : v + 1 = (Nat.sqrt v + 1) ^ 2 := by
  have hr : 0 < Nat.sqrt v := Nat.sqrt_pos.2 hv
  rcases hlo.eq_or_lt with rfl | hlt
  · have hquot : Nat.sqrt v + 2 ≤ v / Nat.sqrt v := by
      rw [newtonPass] at hpass
      omega
    have hlow : (Nat.sqrt v + 2) * Nat.sqrt v ≤ v := (Nat.le_div_iff_mul_le hr).1 hquot
    have hupp := Nat.lt_succ_sqrt' v
    rw [Nat.succ_eq_add_one] at hupp
    linarith [show (Nat.sqrt v + 1) ^ 2 = (Nat.sqrt v + 2) * Nat.sqrt v + 1 by ring]
  · obtain rfl : g = Nat.sqrt v + 1 := by omega
    have herror := newtonPass_error v (Nat.sqrt v + 1)
    simp [hpass] at herror

theorem rootOrNext_newtonPass (hv : 1 ≤ v) (hg : g ∈ Set.Icc (Nat.sqrt v) (Nat.sqrt v + 1)) :
    rootOrNext v (newtonPass v g) := by
  obtain ⟨hlo, hhi⟩ := newtonPass_mapsTo hv (Nat.lt_succ_self _) hg
  rcases Nat.le_or_eq_of_le_succ hhi with hle | hnext
  · exact .inl (by exact_mod_cast le_antisymm hle hlo)
  · exact .inr ⟨succ_eq_sq_of_newtonPass_eq hv hg.1 hg.2 hnext, by exact_mod_cast hnext⟩

/-- Ten passes are enough from a seed of at most `16 * R`, where `R = floor(sqrt(V)) + 1` is at most 2^24: four slow ones bring the excess
down to `R`, five fast ones to 0, and the tenth settles the guess (R214 item 3). -/
theorem rootOrNext_iterate (hv : 1 ≤ v) (hg : Nat.sqrt v ≤ g) (hseed : g ≤ 16 * (Nat.sqrt v + 1)) (hR : Nat.sqrt v < 2 ^ 24)
    (hk : 10 ≤ k) : rootOrNext v ((newtonPass v)^[k] g) := by
  have hslow : rootExcess v ((newtonPass v)^[4] g) ≤ Nat.sqrt v + 1 := by
    have hhalved := two_pow_mul_rootExcess_iterate hv hg 4
    have hle : rootExcess v g ≤ 16 * (Nat.sqrt v + 1) := (Nat.sub_le _ _).trans hseed
    omega
  have hfast : rootExcess v ((newtonPass v)^[5 + 4] g) = 0 := by
    have hsq := two_pow_two_pow_mul_rootExcess_iterate hv (sqrt_le_iterate hv hg 4) hslow 5
    rw [Function.iterate_add_apply]
    omega
  have hclose : (newtonPass v)^[9] g ∈ Set.Icc (Nat.sqrt v) (Nat.sqrt v + 1) :=
    ⟨sqrt_le_iterate hv hg 9, rootExcess_eq_zero_iff.1 hfast⟩
  obtain ⟨m, rfl⟩ := Nat.exists_eq_add_of_le' hk
  rw [show m + 10 = (m + 9) + 1 from rfl, Function.iterate_succ_apply', Function.iterate_add_apply]
  exact rootOrNext_newtonPass hv ((newtonPass_mapsTo hv (Nat.lt_succ_self _)).iterate m hclose)

end Sys2Proof.Machine
end

section
/-! SUPPORT. The engine's root (44_sqrt.md R210, R211; O37): its seed is R210's, its passes divide exactly, so it is the root of the closed
form; and its range (R214 items 1 and 2). -/

namespace Sys2Proof.Machine

variable {p : Params} {v g b fuel : Nat}

/-! ### The radicand and the seed -/

/-- The radicand of either instruction has 2N limbs, the dividend length of R211's divider. -/
theorem radicand_lt (hp : p.legal = true) (hv : v < p.radix ^ (p.N + p.SL)) : v < p.radix ^ (2 * p.N) := by
  obtain ⟨-, ⟨⟨⟨⟨⟨⟨hSL, -⟩, -⟩, -⟩, -⟩, -⟩, -⟩, -⟩ := Params.legal_iff.1 hp
  exact hv.trans_le (Nat.pow_le_pow_right (Nat.two_pow_pos _) (by omega))

theorem sqrtSeed_eq_exactSeed (hv : 1 ≤ v) (hlt : v < p.radix ^ (2 * p.N)) : sqrtSeed p v = exactSeed p v := by
  obtain ⟨⟨hpos, -⟩, hlo, hhi⟩ := sigLimbs_numberLimbs (radix := p.radix) (Nat.two_pow_pos _) hv hlt
  have hlog : Nat.log p.radix v + 1 = sigLimbs (numberLimbs p.radix (2 * p.N) v) := by
    rw [Nat.log_eq_of_pow_le_of_lt_pow hlo (by rwa [Nat.sub_add_cancel hpos]), Nat.sub_add_cancel hpos]
  rw [sqrtSeed, exactSeed, hlog]

/-- LB is even, so R210's ceiling is exact and the seed's square is the power of RADIX above the radicand. -/
theorem exactSeed_sq (hp : p.legal = true) (v : Nat) : exactSeed p v ^ 2 = p.radix ^ (Nat.log p.radix v + 1) := by
  obtain ⟨⟨⟨⟨⟨hLB, -⟩, -⟩, -⟩, -⟩, -⟩ := Params.legal_iff.1 hp
  rw [exactSeed, Params.radix, ← pow_mul, ← pow_mul]
  congr 1
  rcases hLB with hLB | hLB <;> rw [hLB] <;> omega

theorem lt_exactSeed_sq (hp : p.legal = true) (v : Nat) : v < exactSeed p v ^ 2 :=
  exactSeed_sq hp v ▸ Nat.lt_pow_succ_log_self (Params.one_lt_radix hp) v

theorem sqrt_lt_exactSeed (hp : p.legal = true) (v : Nat) : Nat.sqrt v < exactSeed p v := Nat.sqrt_lt'.2 (lt_exactSeed_sq hp v)

/-- The seed is within the factor `sqrt(RADIX)` of the root (R214 item 3). -/
theorem exactSeed_sq_le (hp : p.legal = true) (hv : 1 ≤ v) : exactSeed p v ^ 2 ≤ p.radix * v := by
  rw [exactSeed_sq hp, pow_succ']
  exact Nat.mul_le_mul_left _ (Nat.pow_log_le_self _ (by omega))

/-- The seed is a non-negative W-bit value: SL is below N, so the radicand has at most 2N - 1 limbs (R214 item 2). -/
theorem exactSeed_lt (hp : p.legal = true) (hv : 1 ≤ v) (hlt : v < p.radix ^ (p.N + p.SL)) : exactSeed p v < 2 ^ (p.W - 1) := by
  obtain ⟨⟨⟨⟨⟨hLB, hN⟩, -⟩, -⟩, -⟩, ⟨⟨⟨⟨⟨⟨hSL, -⟩, -⟩, -⟩, -⟩, -⟩, -⟩, -⟩ := Params.legal_iff.1 hp
  have hlog : Nat.log p.radix v < p.N + p.SL := Nat.log_lt_of_lt_pow (by omega) hlt
  refine lt_of_pow_lt_pow_left₀ 2 (Nat.zero_le _) ?_
  calc exactSeed p v ^ 2 = p.radix ^ (Nat.log p.radix v + 1) := exactSeed_sq hp v
    _ ≤ p.radix ^ (2 * p.N - 1) := Nat.pow_le_pow_right (Nat.two_pow_pos _) (by omega)
    _ = 2 ^ (p.LB * (2 * p.N - 1)) := (Nat.pow_mul _ _ _).symm
    _ < 2 ^ ((p.W - 1) * 2) := Nat.pow_lt_pow_right (by decide) (by
      rw [Params.W]
      rcases hLB with hLB | hLB <;> rw [hLB] <;> omega)
    _ = (2 ^ (p.W - 1)) ^ 2 := Nat.pow_mul _ _ _

/-! ### The loop -/

theorem sqrtPass_eq_newtonPass (hp : p.legal = true) (hv : v < p.radix ^ (2 * p.N)) (hg : 1 ≤ g) (hW : g < 2 ^ p.W) :
    sqrtPass p v g = newtonPass v g := by
  rw [sqrtPass, algorithmDIsFloorDivision p v _ g hp hv hg (Params.radix_pow_N p ▸ hW), newtonPass]

theorem sqrtLoop_eq_exactRootLoop (hp : p.legal = true) (hv : 1 ≤ v) (hlt : v < p.radix ^ (2 * p.N))
    (hb : Nat.sqrt v < b) (hW : b < 2 ^ p.W) (hg : g ∈ Set.Icc (Nat.sqrt v) b) : sqrtLoop p v fuel g = exactRootLoop v fuel g := by
  induction fuel generalizing g with
  | zero => rfl
  | succ fuel ih =>
    have hpass := sqrtPass_eq_newtonPass hp hlt ((Nat.sqrt_pos.2 hv).trans_le hg.1) (hg.2.trans_lt hW)
    rw [sqrtLoop, exactRootLoop, hpass, ih (newtonPass_mapsTo hv hb hg), newtonPass]

theorem nrSqrt_eq_exactRoot (hp : p.legal = true) (hv : 1 ≤ v) (hlt : v < p.radix ^ (p.N + p.SL)) :
    nrSqrt p v = exactRoot p v := by
  have hseed := sqrt_lt_exactSeed hp v
  have hW : exactSeed p v < 2 ^ p.W := (exactSeed_lt hp hv hlt).trans_le (Nat.pow_le_pow_right (by decide) (Nat.sub_le _ _))
  rw [nrSqrt, sqrtSeed_eq_exactSeed hv (radicand_lt hp hlt),
    sqrtLoop_eq_exactRootLoop hp hv (radicand_lt hp hlt) hseed hW ⟨hseed.le, le_rfl⟩, exactRoot]

theorem exactRoot_mem_Icc (hp : p.legal = true) (hv : 1 ≤ v) : exactRoot p v ∈ Set.Icc (Nat.sqrt v) (exactSeed p v) := by
  have hseed := sqrt_lt_exactSeed hp v
  rw [exactRoot, exactRootLoop_eq_iterate]
  exact (newtonPass_mapsTo hv hseed).iterate _ ⟨hseed.le, le_rfl⟩

/-- Settles O37: every guess stays between floor(sqrt(V)) and the seed, and the seed is below 2^(W-1). -/
theorem sqrtResultInRange : Obligations.SqrtResultInRange := by
  intro p v hp hv hlt
  obtain ⟨hlo, hhi⟩ := exactRoot_mem_Icc hp hv
  rw [sqrtSeed_eq_exactSeed hv (radicand_lt hp hlt), nrSqrt_eq_exactRoot hp hv hlt]
  exact ⟨rfl, hlo, hhi, exactSeed_lt hp hv hlt, lt_exactSeed_sq hp v⟩

end Sys2Proof.Machine
end

section
/-! SUPPORT. The instructions of 44_sqrt.md: ISQRT and FSQRT (O36), and their convergence at the reference parameters (O38). -/

namespace Sys2Proof.Machine

variable {s : State} {i : Instr} {d a : WReg} {p : Params} {v shift : Nat}

/-! ### The results -/

theorem fitsW_exactRoot (hp : p.legal = true) (hv : 1 ≤ v) (hlt : v < p.radix ^ (p.N + p.SL)) : fitsW p (exactRoot p v) := by
  have hroot : (exactRoot p v : Int) < 2 ^ (p.W - 1) := by
    exact_mod_cast (exactRoot_mem_Icc hp hv).2.trans_lt (exactSeed_lt hp hv hlt)
  have hpos : (0 : Int) < 2 ^ (p.W - 1) := by positivity
  exact ⟨by omega, hroot⟩

/-- An instruction that writes the engine's root of `v` and goes on. -/
theorem wideResult_of_nrSqrt (hp : s.params.legal = true) (hv : 1 ≤ v) (hlt : v < s.params.radix ^ (s.params.N + s.params.SL))
    (hexec : exec i s = s.writeWNext d (encW s.params (nrSqrt s.params v))) :
    WideResult i s d fun w => sval s.params w = exactRoot s.params v := by
  rw [nrSqrt_eq_exactRoot hp hv hlt] at hexec
  exact wideResult_of_writeWNext hexec (encW_lt hp _) (sval_encW hp (fitsW_exactRoot hp hv hlt))

theorem uval_eq_toNat_sval {x : Wide} (hx : 0 ≤ sval p x) : uval p x = (sval p x).toNat := by
  have hneg : ¬isneg p x = true := fun h => hx.not_gt ((isneg_iff_sval_neg p x).1 h)
  simp [sval, hneg]

/-- A radicand of either instruction has at most N + SL limbs (R212, R213). -/
theorem uval_shifted_lt (x : Wide) (hshift : shift ≤ p.FB) :
    uval p x * 2 ^ shift < p.radix ^ (p.N + p.SL) := by
  rw [pow_add, Params.radix_pow_N, show p.radix ^ p.SL = 2 ^ p.FB from (Nat.pow_mul _ _ _).symm]
  exact Nat.mul_lt_mul_of_lt_of_le (uval_lt p x) (Nat.pow_le_pow_right (by decide) hshift) (Nat.two_pow_pos _)

/-- How an instruction of this file ends, its radicand the operand times `2^shift`: the sign test, then the zero test, then the root. -/
theorem sqrtInstr_result (hp : s.params.legal = true) (hshift : shift ≤ s.params.FB)
    (hexec : exec i s =
      if isneg s.params (s.readW a) then .next (s.raiseFault .domain (arithInfo d a 0 shift))
      else if iszero s.params (s.readW a) then s.writeWNext d 0
      else s.writeWNext d (encW s.params (nrSqrt s.params (uval s.params (s.readW a) * 2 ^ shift)))) :
    (sval s.params (s.readW a) < 0 → exec i s = .next (s.raiseFault .domain (arithInfo d a 0 shift))) ∧
    (sval s.params (s.readW a) = 0 → WideResult i s d (· = 0)) ∧
    (0 < sval s.params (s.readW a) →
      WideResult i s d fun w => sval s.params w = exactRoot s.params ((sval s.params (s.readW a)).toNat * 2 ^ shift)) := by
  simp only [isneg_iff_sval_neg, iszero_iff_sval] at hexec
  refine ⟨fun hneg => hexec.trans (if_pos hneg), fun hzero => ?_, fun hpos => ?_⟩
  · rw [if_neg hzero.not_lt, if_pos hzero] at hexec
    exact wideResult_of_writeWNext hexec (Nat.two_pow_pos _) rfl
  · rw [if_neg hpos.not_gt, if_neg hpos.ne', uval_eq_toNat_sval hpos.le] at hexec
    refine wideResult_of_nrSqrt hp (Nat.mul_pos (by omega) (Nat.two_pow_pos _)) ?_ hexec
    exact uval_eq_toNat_sval hpos.le ▸ uval_shifted_lt _ hshift

theorem exec_isqrt_result (hp : s.params.legal = true) (d a : WReg) :
    (sval s.params (s.readW a) < 0 → exec (.isqrt d a) s = .next (s.raiseFault .domain (arithInfo d a 0 0))) ∧
    (sval s.params (s.readW a) = 0 → WideResult (.isqrt d a) s d (· = 0)) ∧
    (0 < sval s.params (s.readW a) →
      WideResult (.isqrt d a) s d fun w => sval s.params w = exactRoot s.params (sval s.params (s.readW a)).toNat) := by
  have hexec := sqrtInstr_result (i := .isqrt d a) (d := d) (a := a) hp (Nat.zero_le _) (by rw [pow_zero, Nat.mul_one]; rfl)
  rwa [pow_zero, Nat.mul_one] at hexec

theorem exec_fsqrt_result (hp : s.params.legal = true) (d a : WReg) :
    (sval s.params (s.readW a) < 0 → exec (.fsqrt d a) s = .next (s.raiseFault .domain (arithInfo d a 0 s.params.FB))) ∧
    (sval s.params (s.readW a) = 0 → WideResult (.fsqrt d a) s d (· = 0)) ∧
    (0 < sval s.params (s.readW a) → WideResult (.fsqrt d a) s d fun w =>
      sval s.params w = exactRoot s.params ((sval s.params (s.readW a)).toNat * 2 ^ s.params.FB)) :=
  sqrtInstr_result hp le_rfl rfl

/-- Settles O36: both instructions end alike, with shift 0 and with shift FB. -/
theorem sqrtResults : Obligations.SqrtResults := by
  intro s d a hp x
  obtain ⟨hineg, hizero, hipos⟩ := exec_isqrt_result hp d a
  obtain ⟨hfneg, hfzero, hfpos⟩ := exec_fsqrt_result hp d a
  exact ⟨fun h => ⟨hineg h, hfneg h⟩, fun h => ⟨hizero h, hfzero h⟩, fun h => ⟨hipos h, hfpos h⟩⟩

/-! ### Convergence at the reference parameters -/

/-- Every budget of R7 is legal at the reference sizes. -/
theorem reference_legal {k : Nat} (hlo : 1 ≤ k) (hhi : k ≤ 255) : { Params.reference with sqrtIters := k }.legal = true := by
  simp [Params.legal_iff, Params.reference, hlo, hhi]

/-- Limbs of 8 bits put the seed within the factor 16 of the root, and a radicand of 48 bits has a root of 24. -/
theorem rootOrNext_exactRoot (hp : p.legal = true) (hLB : p.LB = 8) (hk : 10 ≤ p.sqrtIters) (hv : 1 ≤ v) (hlt : v < 2 ^ 48) :
    rootOrNext v (exactRoot p v) := by
  have hseed : exactSeed p v ≤ 16 * (Nat.sqrt v + 1) := by
    refine (Nat.pow_le_pow_iff_left two_ne_zero).1 ?_
    calc exactSeed p v ^ 2 ≤ p.radix * v := exactSeed_sq_le hp hv
      _ = 16 ^ 2 * v := by rw [Params.radix, hLB]; norm_num
      _ ≤ 16 ^ 2 * (Nat.sqrt v + 1) ^ 2 := Nat.mul_le_mul_left _ (Nat.lt_succ_sqrt' v).le
      _ = (16 * (Nat.sqrt v + 1)) ^ 2 := (mul_pow _ _ _).symm
  rw [exactRoot, exactRootLoop_eq_iterate]
  exact rootOrNext_iterate hv (sqrt_lt_exactSeed hp v).le hseed (Nat.sqrt_lt'.2 hlt) hk

/-- Settles O38: a positive operand is below 2^31, so the radicands are below 2^31 and 2^47. -/
theorem sqrtConvergesAtReference : Obligations.SqrtConvergesAtReference := by
  intro s d a k hlo hhi hparams hx v
  have hp : s.params.legal = true := hparams ▸ reference_legal (by omega) hhi
  have hLB : s.params.LB = 8 := by rw [hparams, Params.reference]
  have hFB : s.params.FB = 16 := by rw [hparams]; rfl
  have hk : 10 ≤ s.params.sqrtIters := by rwa [hparams]
  have hlt : v < 2 ^ 31 := by
    obtain ⟨-, hfits⟩ := fitsW_sval hp (s.readW a)
    rw [show s.params.W = 32 by rw [hparams]; rfl] at hfits
    omega
  have hv : 1 ≤ v := by omega
  obtain ⟨-, -, hisqrt⟩ := exec_isqrt_result hp d a
  obtain ⟨-, -, hfsqrt⟩ := exec_fsqrt_result hp d a
  obtain ⟨t, hexec, hframe, hroot⟩ := hisqrt hx
  obtain ⟨u, hexec', hframe', hroot'⟩ := hfsqrt hx
  rw [hFB] at hroot'
  refine ⟨⟨t, hexec, hframe, ?_⟩, u, hexec', hframe', ?_⟩
  · exact hroot ▸ rootOrNext_exactRoot hp hLB hk hv (by omega)
  · exact hroot' ▸ rootOrNext_exactRoot hp hLB hk (by omega) (by omega)

end Sys2Proof.Machine
end

section
/-! SUPPORT. The limbs of an integer: a wide value's limbs are the digits of every integer congruent to it modulo 2^W, negative ones too, so a
list of limbs is an integer's encoding when its entries are that integer's digits. -/

namespace Sys2Proof.Machine

variable {p : Params} {x : Wide} {v w : Int} {i n : Nat} {f : Nat → Nat}

/-! ### Digits of an integer -/

/-- Limb `i` of an integer in base `radix`: for a negative one, of its two's complement with no end. -/
def intLimb (radix : Nat) (v : Int) (i : Nat) : Int := v / (radix : Int) ^ i % radix

theorem Params.radix_pos (p : Params) : (0 : Int) < p.radix := by exact_mod_cast Nat.two_pow_pos p.LB

theorem Params.radix_pow_int (p : Params) (n : Nat) : (p.radix : Int) ^ n = 2 ^ (n * p.LB) := by
  rw [Params.radix, Nat.mul_comm, pow_mul]
  norm_cast

theorem Params.radix_pow_N_int (p : Params) : (p.radix : Int) ^ p.N = 2 ^ p.W := Params.radix_pow_int p p.N

/-- Limbs below limb `n` depend on the integer modulo RADIX^n only. -/
theorem intLimb_congr (h : v ≡ w [ZMOD (p.radix : Int) ^ n]) (hi : i < n) : intLimb p.radix v i = intLimb p.radix w i := by
  obtain ⟨q, hq⟩ := Int.modEq_iff_dvd.1 h
  obtain ⟨m, rfl⟩ := Nat.exists_eq_add_of_lt hi
  have hw : w = v + p.radix * (p.radix ^ m * q) * p.radix ^ i := by rw [eq_add_of_sub_eq' hq]; ring
  rw [intLimb, intLimb, hw, Int.add_mul_ediv_right _ _ (pow_pos (Params.radix_pos p) i).ne', Int.add_mul_emod_self_left]

/-- Dividing by RADIX^k takes `k` limbs off. -/
theorem intLimb_ediv (radix : Nat) (v : Int) (k i : Nat) :
    intLimb radix (v / (radix : Int) ^ k) i = intLimb radix v (i + k) := by
  rw [intLimb, intLimb, Int.ediv_ediv_of_nonneg (by positivity), ← pow_add, Nat.add_comm]

/-- Multiplying by RADIX^k puts `k` limbs 0 below. -/
theorem intLimb_mul (p : Params) (v : Int) (k i : Nat) :
    intLimb p.radix (v * (p.radix : Int) ^ k) i = if i ≥ k then intLimb p.radix v (i - k) else 0 := by
  split
  next hi =>
    obtain ⟨m, rfl⟩ := Nat.exists_eq_add_of_le' hi
    rw [Nat.add_sub_cancel, ← intLimb_ediv, Int.mul_ediv_cancel _ (pow_pos (Params.radix_pos p) k).ne']
  next hi =>
    obtain ⟨m, rfl⟩ := Nat.exists_eq_add_of_lt (not_le.1 hi)
    have hmul : v * (p.radix : Int) ^ (i + m + 1) = v * p.radix ^ m * p.radix * p.radix ^ i := by ring
    rw [intLimb, hmul, Int.mul_ediv_cancel _ (pow_pos (Params.radix_pos p) i).ne', Int.mul_emod_left]

/-! ### Limbs of wide values -/

/-- The limbs of a wide value are those of each integer congruent to it modulo 2^W. -/
theorem limb_eq_intLimb (h : uval p x ≡ v [ZMOD 2 ^ p.W]) (hi : i < p.N) : (limb p x i : Int) = intLimb p.radix v i := by
  rw [← Params.radix_pow_N_int] at h
  rw [← intLimb_congr h hi, limb, intLimb, Nat.pow_mul, ← Params.radix]
  norm_cast

/-- Limbs that are an integer's digits make its encoding. -/
theorem mklimbs_map_eq_encW (hp : p.legal = true) (h : ∀ i < p.N, (f i : Int) = intLimb p.radix v i) :
    mklimbs p ((List.range p.N).map f) = encW p v := by
  have hlimbs : (List.range p.N).map f = limbs p (encW p v) := List.map_congr_left fun i hi => by
    have hi := List.mem_range.1 hi
    exact_mod_cast (h i hi).trans (limb_eq_intLimb (uval_encW_modEq hp v) hi).symm
  refine hlimbs ▸ mklimbs_eq_encW hp (length_limbs _ _) (limbs_lt _ _) ?_
  rw [limbsValue_limbs, Params.radix_pow_N_int]
  exact uval_encW_modEq hp v

/-! ### Limbs past the register -/

theorem two_pow_W_le_radix_pow (hn : p.N ≤ n) : (2 : Int) ^ p.W ≤ (p.radix : Int) ^ n :=
  Params.radix_pow_N_int p ▸ pow_le_pow_right₀ (Order.one_le_iff_pos.2 (Params.radix_pos p)) hn

/-- An unsigned value has no limbs past the register. -/
theorem intLimb_uval (x : Wide) (hn : p.N ≤ n) : intLimb p.radix (uval p x) n = (0 : Nat) := by
  have hlt : (uval p x : Int) < 2 ^ p.W := by exact_mod_cast uval_lt p x
  rw [intLimb, Int.ediv_eq_zero_of_lt (Int.natCast_nonneg _) (hlt.trans_le (two_pow_W_le_radix_pow hn))]
  rfl

/-- A signed value has its sign's limbs past the register. -/
theorem intLimb_sval (hp : p.legal = true) (x : Wide) (hn : p.N ≤ n) :
    intLimb p.radix (sval p x) n = ((if isneg p x then p.radix - 1 else 0 : Nat) : Int) := by
  have hle : (2 : Int) ^ (p.W - 1) ≤ (p.radix : Int) ^ n :=
    (pow_le_pow_right₀ one_le_two (Nat.sub_le _ _)).trans (two_pow_W_le_radix_pow hn)
  have hradix := Params.one_lt_radix hp
  simp only [intLimb, (fitsW_sval hp x).ediv_of_le hle, isneg_iff_sval_neg]
  split
  · rw [← Int.add_emod_right, Int.emod_eq_of_lt (by omega) (by omega)]
    omega
  · rfl

end Sys2Proof.Machine
end

section
/-! SUPPORT. The instructions of 45_limb_shift.md (O27): the limbs that each writes are those of a product or of a floor quotient. -/

namespace Sys2Proof.Machine

variable {s : State} {p : Params}

/-! ### The three shifts -/

/-- LSHL's limbs (R231) are those of the product with any integer that the operand encodes. -/
theorem shiftLimbsLeft_eq_encW (hp : p.legal = true) {x : Wide} {v : Int} (h : uval p x ≡ v [ZMOD 2 ^ p.W]) (k : Nat) :
    shiftLimbsLeft p x k = encW p (v * p.radix ^ k) :=
  mklimbs_map_eq_encW hp fun i hi => by
    rw [intLimb_mul, Nat.cast_ite, limb_eq_intLimb h (Nat.sub_lt_of_lt hi), Nat.cast_zero]

/-- A right shift's limbs are those of a floor quotient where the fill limb is each limb of the dividend past the register. -/
theorem shiftLimbsRight_eq_encW {fill : Nat} (hp : p.legal = true) {x : Wide} {v : Int} (h : uval p x ≡ v [ZMOD 2 ^ p.W])
    (hfill : ∀ j ≥ p.N, intLimb p.radix v j = fill) (k : Nat) : shiftLimbsRight p x k fill = encW p (v / p.radix ^ k) :=
  mklimbs_map_eq_encW hp fun i _ => by
    rw [intLimb_ediv]
    split
    next hin => exact limb_eq_intLimb h hin
    next hpast => exact (hfill _ (not_lt.1 hpast)).symm

/-- LSHR (R232) divides the unsigned value. -/
theorem shiftLimbsRight_zero_eq_encW (hp : p.legal = true) (x : Wide) (k : Nat) :
    shiftLimbsRight p x k 0 = encW p (uval p x / p.radix ^ k) :=
  shiftLimbsRight_eq_encW hp rfl (fun _ hj => intLimb_uval x hj) k

/-- The unsigned quotient fits, so it is LSHR's unsigned value. -/
theorem uval_shiftLimbsRight_zero (hp : p.legal = true) (x : Wide) (k : Nat) :
    uval p (shiftLimbsRight p x k 0) = uval p x / p.radix ^ k := by
  have hlt : uval p x / p.radix ^ k < 2 ^ p.W := (Nat.div_le_self _ _).trans_lt (uval_lt p x)
  have hval := uval_encW hp ((uval p x / p.radix ^ k : Nat) : Int)
  rw [Int.emod_eq_of_lt (by positivity) (by exact_mod_cast hlt)] at hval
  rw [shiftLimbsRight_zero_eq_encW hp]
  exact_mod_cast hval

/-- LSRA's limbs (R233): the right shift filled with the operand's sign. -/
def shiftLimbsArith (p : Params) (x : Wide) (k : Nat) : Wide :=
  shiftLimbsRight p x k (if isneg p x then p.radix - 1 else 0)

theorem execLsra_eq (d a : WReg) (k : Half) (s : State) :
    execLsra d a k s = s.writeWNext d (shiftLimbsArith s.params (s.readW a) k.toNat) := rfl

/-- LSRA divides the signed value. -/
theorem shiftLimbsArith_eq_encW (hp : p.legal = true) (x : Wide) (k : Nat) :
    shiftLimbsArith p x k = encW p (sval p x / p.radix ^ k) :=
  shiftLimbsRight_eq_encW hp (sval_modEq_uval p x).symm (fun _ hj => intLimb_sval hp x hj) k

/-- The signed quotient fits, so it is LSRA's signed value. -/
theorem sval_shiftLimbsArith (hp : p.legal = true) (x : Wide) (k : Nat) :
    sval p (shiftLimbsArith p x k) = sval p x / p.radix ^ k := by
  rw [shiftLimbsArith_eq_encW hp, sval_encW hp ((fitsW_sval hp x).ediv (pow_pos (Params.radix_pos p) k))]

/-! ### The instructions -/

/-- A count past N changes nothing: from N on, only the sign is left. -/
theorem fitsW.ediv_radix_pow_min {v : Int} (hv : fitsW p v) (k : Nat) :
    v / (p.radix : Int) ^ min k p.N = v / p.radix ^ k := by
  rw [Params.radix_pow_int, Params.radix_pow_int, ← Nat.mul_min_mul_right]
  exact hv.ediv_two_pow_min (k * p.LB)

theorem exec_lshl_result (hp : s.params.legal = true) (d a : WReg) (k : Half) :
    WideResult (.lshl d a k) s d (· = encW s.params (uval s.params (s.readW a) * s.params.radix ^ k.toNat)) :=
  wideResult_of_writeWNext (congrArg (s.writeWNext d) (shiftLimbsLeft_eq_encW hp rfl _)) (encW_lt hp _) rfl

theorem exec_lshr_result (hp : s.params.legal = true) (d a : WReg) (k : Half) :
    WideResult (.lshr d a k) s d fun w => uval s.params w = uval s.params (s.readW a) / s.params.radix ^ k.toNat :=
  wideResult_of_writeWNext rfl (shiftLimbsRight_zero_eq_encW hp _ _ ▸ encW_lt hp _) (uval_shiftLimbsRight_zero hp _ _)

theorem exec_lsra_result (hp : s.params.legal = true) (d a : WReg) (k : Half) :
    WideResult (.lsra d a k) s d
      (· = encW s.params (sval s.params (s.readW a) / s.params.radix ^ min k.toNat s.params.N)) := by
  rw [(fitsW_sval hp _).ediv_radix_pow_min]
  exact wideResult_of_writeWNext ((execLsra_eq d a k s).trans (congrArg (s.writeWNext d) (shiftLimbsArith_eq_encW hp _ _)))
    (encW_lt hp _) rfl

/-- Settles O27: each shift's limbs are those of its product or quotient. -/
theorem limbShiftResults : Obligations.LimbShiftResults :=
  fun _ d a k hp => ⟨exec_lshl_result hp d a k, exec_lshr_result hp d a k, exec_lsra_result hp d a k⟩

end Sys2Proof.Machine
end

section
/-! SUPPORT. The laws of limb shifts (45_limb_shift.md R235, O29), from the product and the quotients that the shifts are. -/

namespace Sys2Proof.Machine

variable {p : Params} {x : Wide} {k : Nat}

/-! ### Counts add -/

section CountsAdd
variable (hp : p.legal = true) (x : Wide) (j k : Nat)
include hp

theorem shiftLimbsLeft_add : shiftLimbsLeft p (shiftLimbsLeft p x j) k = shiftLimbsLeft p x (j + k) := by
  have hfirst : uval p (shiftLimbsLeft p x j) ≡ uval p x * p.radix ^ j [ZMOD 2 ^ p.W] :=
    shiftLimbsLeft_eq_encW hp rfl j ▸ uval_encW_modEq hp _
  rw [shiftLimbsLeft_eq_encW hp hfirst, shiftLimbsLeft_eq_encW hp rfl, mul_assoc, ← pow_add]

theorem shiftLimbsRight_zero_add :
    shiftLimbsRight p (shiftLimbsRight p x j 0) k 0 = shiftLimbsRight p x (j + k) 0 := by
  rw [shiftLimbsRight_zero_eq_encW hp, uval_shiftLimbsRight_zero hp, shiftLimbsRight_zero_eq_encW hp, pow_add]
  push_cast
  rw [Int.ediv_ediv_of_nonneg (by positivity)]

theorem shiftLimbsArith_add : shiftLimbsArith p (shiftLimbsArith p x j) k = shiftLimbsArith p x (j + k) := by
  rw [shiftLimbsArith_eq_encW hp, sval_shiftLimbsArith hp, shiftLimbsArith_eq_encW hp, pow_add,
    Int.ediv_ediv_of_nonneg (by positivity)]

end CountsAdd

/-! ### The two right shifts, and LSRA after LSHL -/

theorem shiftLimbsArith_of_nonneg (h : isneg p x = false) (k : Nat) : shiftLimbsArith p x k = shiftLimbsRight p x k 0 := by
  rw [shiftLimbsArith, h, if_neg Bool.false_ne_true]

/-- For k <= N, LSRA undoes LSHL exactly when the product fits. The signed value of LSHL's result is a multiple of RADIX^k, as the product and
2^W are, so LSRA's quotient is exact. -/
theorem shiftLimbsArith_shiftLimbsLeft_eq_iff (hp : p.legal = true) (hx : x.toNat < 2 ^ p.W) (hk : k ≤ p.N) :
    shiftLimbsArith p (shiftLimbsLeft p x k) k = x ↔ fitsW p (sval p x * p.radix ^ k) := by
  have hleft := shiftLimbsLeft_eq_encW hp (sval_modEq_uval p x).symm k
  have hpow : (p.radix : Int) ^ k ≠ 0 := (pow_pos (Params.radix_pos p) k).ne'
  constructor
  · intro hundo
    have hquot : sval p x = sval p (shiftLimbsLeft p x k) / p.radix ^ k := by rw [← sval_shiftLimbsArith hp, hundo]
    have hmod : sval p (shiftLimbsLeft p x k) ≡ sval p x * p.radix ^ k [ZMOD 2 ^ p.W] :=
      (sval_modEq_uval p _).trans (hleft ▸ uval_encW_modEq hp _)
    have hdvd : (p.radix : Int) ^ k ∣ sval p (shiftLimbsLeft p x k) :=
      (hmod.of_dvd (Params.radix_pow_N_int p ▸ pow_dvd_pow _ hk)).dvd_iff.2 (dvd_mul_left _ _)
    rw [hquot, Int.ediv_mul_cancel hdvd]
    exact fitsW_sval hp _
  · intro hfits
    rw [shiftLimbsArith_eq_encW hp, hleft, sval_encW hp hfits, Int.mul_ediv_cancel _ hpow]
    exact (eq_encW_sval hp hx).symm

/-- A product by RADIX^k with k < N fits when the factor does in W - k*LB signed bits. -/
theorem fitsW_mul_radix_pow_iff (hp : p.legal = true) (v : Int) (hk : k < p.N) :
    fitsW p (v * p.radix ^ k) ↔ -(2 : Int) ^ (p.W - 1 - k * p.LB) ≤ v ∧ v < (2 : Int) ^ (p.W - 1 - k * p.LB) := by
  have hbits : k * p.LB ≤ p.W - 1 := by
    have hLB : p.LB ≠ 0 := Nat.one_lt_two_pow_iff.1 (Params.one_lt_radix hp)
    have hlt : k * p.LB < p.W := Nat.mul_lt_mul_of_pos_right hk (Nat.pos_of_ne_zero hLB)
    omega
  have hpos : (0 : Int) < 2 ^ (k * p.LB) := by positivity
  have hsplit : (2 : Int) ^ (p.W - 1) = 2 ^ (p.W - 1 - k * p.LB) * 2 ^ (k * p.LB) := by rw [← pow_add, Nat.sub_add_cancel hbits]
  rw [fitsW, Params.radix_pow_int, hsplit, ← neg_mul, mul_le_mul_iff_left₀ hpos, mul_lt_mul_iff_left₀ hpos]

/-- A product by RADIX^N is a multiple of 2^W, of which only 0 fits. -/
theorem fitsW_mul_radix_pow_N_iff (hp : p.legal = true) (v : Int) : fitsW p (v * p.radix ^ p.N) ↔ v = 0 := by
  have hzero : fitsW p 0 := ⟨by simp, by positivity⟩
  rw [Params.radix_pow_N_int]
  constructor
  · intro hfits
    have hprod := hfits.eq_of_modEq hp hzero (Int.modEq_zero_iff_dvd.2 (dvd_mul_left _ _))
    exact (mul_eq_zero.1 hprod).resolve_right (by positivity)
  · rintro rfl
    rwa [zero_mul]

theorem sval_eq_zero_iff (hx : x.toNat < 2 ^ p.W) : sval p x = 0 ↔ x = 0 := by
  rw [← iszero_iff_sval, iszero_iff, uval, Nat.mod_eq_of_lt hx, BitVec.toNat_eq]
  rfl

/-- Settles O29: counts add in each shift, and LSRA undoes LSHL exactly when the product fits. -/
theorem limbShiftLaws : Obligations.LimbShiftLaws := by
  intro p x j k hp hx fill lsra
  refine ⟨shiftLimbsLeft_add hp x j k, shiftLimbsRight_zero_add hp x j k, shiftLimbsArith_add hp x j k,
    fun hsign => shiftLimbsArith_of_nonneg hsign k, fun hk => ?_, ?_⟩
  · exact (shiftLimbsArith_shiftLimbsLeft_eq_iff hp hx hk.le).trans (fitsW_mul_radix_pow_iff hp _ hk)
  · rintro rfl
    exact (shiftLimbsArith_shiftLimbsLeft_eq_iff hp hx le_rfl).trans
      ((fitsW_mul_radix_pow_N_iff hp _).trans (sval_eq_zero_iff hx))

end Sys2Proof.Machine
end

section
/-! SUPPORT. The instructions of 46_scalar.md that write a scalar register: sums and differences (O39), shifts (O40), and the source's shift
loops (O41). SSHL's and SASR's values are the shifts of a bit vector, which saturate at the width and whose counts add. -/

namespace Sys2Proof.Machine

variable {i : Instr} {s : State} {d : SReg} {v : Half}

/-! ### How such an instruction ends -/

/-- Instruction `i`, run at `s`, writes a value with property `P` to `S[d]`, and changes nothing else but pc, which advances by 1. -/
def ScalarResult (i : Instr) (s : State) (d : SReg) (P : Half → Prop) : Prop :=
  ∃ t, exec i s = .next t ∧ s.OnlyScalar t d ∧ t.pc = s.pc + 1 ∧ P (t.readS d)

theorem State.onlyScalar_writeS_advance (s : State) (d : SReg) (v : Half) : s.OnlyScalar (s.writeS d v).advance d := by
  refine ⟨?_, fun r hr => ?_⟩
  · unfold State.writeS
    split <;> rfl
  · rw [State.readS_advance, State.readS_writeS_eq_ite, if_neg (fun ⟨he, _⟩ => hr he)]

/-- An instruction that goes on to the next one after writing `v`, of which `val` reads the value `r`; S0 discards the write (10_state.md R36). -/
theorem scalarResult_of_writeSNext {α : Type} (val : Half → α) {zero r : α} (hexec : exec i s = s.writeSNext d v)
    (hzero : val 0 = zero) (hv : val v = r) : ScalarResult i s d fun w => val w = if d = 0 then zero else r := by
  have hread : val ((s.writeS d v).advance.readS d) = if d = 0 then zero else r := by
    rw [State.readS_advance, State.readS_writeS, if_pos rfl, apply_ite val, hzero, hv]
  exact ⟨_, hexec, s.onlyScalar_writeS_advance d v, by simp [State.advance], hread⟩

/-! ### Sums and differences -/

theorem natCast_toNat_ofInt_half (m : Int) : ((BitVec.ofInt 16 m).toNat : Int) = m % 65536 := by
  rw [BitVec.toNat_ofInt]
  exact Int.toNat_of_nonneg (Int.emod_nonneg m (by decide))

theorem exec_sli_result (s : State) (d : SReg) (imm : Half) :
    ScalarResult (.sli d imm) s d fun w => w = if d = 0 then 0 else imm :=
  scalarResult_of_writeSNext id rfl rfl rfl

theorem exec_saddi_result (s : State) (d a : SReg) (simm : Half) :
    ScalarResult (.saddi d a simm) s d fun w =>
      (w.toNat : Int) = if d = 0 then 0 else ((s.readS a).toNat + simm.toInt) % 65536 :=
  scalarResult_of_writeSNext (fun w => (w.toNat : Int)) rfl rfl (natCast_toNat_ofInt_half _)

theorem exec_sadd_result (s : State) (d a b : SReg) :
    ScalarResult (.sadd d a b) s d fun w =>
      w.toNat = if d = 0 then 0 else ((s.readS a).toNat + (s.readS b).toNat) % 65536 :=
  scalarResult_of_writeSNext BitVec.toNat rfl rfl (BitVec.toNat_ofNat _ _)

theorem exec_ssub_result (s : State) (d a b : SReg) :
    ScalarResult (.ssub d a b) s d fun w =>
      (w.toNat : Int) = if d = 0 then 0 else ((s.readS a).toNat - (s.readS b).toNat : Int) % 65536 :=
  scalarResult_of_writeSNext (fun w => (w.toNat : Int)) rfl rfl (natCast_toNat_ofInt_half _)

/-- Settles O39: each writes the low 16 bits of its sum or difference. -/
theorem scalarArithmeticResults : Obligations.ScalarArithmeticResults :=
  fun s d a b imm => ⟨exec_sli_result s d imm, exec_saddi_result s d a imm, exec_sadd_result s d a b, exec_ssub_result s d a b⟩

/-! ### Shifts -/

theorem ofNat_mul_two_pow (x : Half) (n : Nat) : BitVec.ofNat 16 (x.toNat * 2 ^ n) = x <<< n := by
  apply BitVec.eq_of_toNat_eq
  rw [BitVec.toNat_ofNat, BitVec.toNat_shiftLeft, Nat.shiftLeft_eq]

/-- R254's two cases are one: a count of 16 or more shifts every bit out. -/
theorem scalarShiftLeft_eq_shiftLeft (x : Half) (n : Nat) : scalarShiftLeft x n = x <<< n := by
  unfold scalarShiftLeft
  split
  next hn => exact (BitVec.shiftLeft_eq_zero hn).symm
  next => exact ofNat_mul_two_pow x n

theorem toInt_sshiftRight_eq_ediv (x : Half) (n : Nat) : (x.sshiftRight n).toInt = x.toInt / 2 ^ n := by
  rw [BitVec.toInt_sshiftRight, Int.shiftRight_eq_div_pow, Nat.cast_pow, Nat.cast_ofNat]

theorem ofInt_ediv_two_pow (x : Half) (n : Nat) : BitVec.ofInt 16 (x.toInt / 2 ^ n) = x.sshiftRight n := by
  rw [← toInt_sshiftRight_eq_ediv, BitVec.ofInt_toInt]

/-- From a count of 16 on, every bit is the sign. -/
theorem sshiftRight_min (x : Half) (n : Nat) : x.sshiftRight (min n 16) = x.sshiftRight n := by
  rcases le_total n 16 with hn | hn
  · rw [min_eq_left hn]
  · ext j hj
    rw [min_eq_right hn, BitVec.getElem_sshiftRight, BitVec.getElem_sshiftRight, dif_neg (by omega), dif_neg (by omega)]

theorem scalarShiftRight_eq_sshiftRight (x : Half) (n : Nat) : scalarShiftRight x n = x.sshiftRight n :=
  (ofInt_ediv_two_pow x (min n 16)).trans (sshiftRight_min x n)

theorem toNat_scalarShiftLeft (x : Half) (n : Nat) : (scalarShiftLeft x n).toNat = x.toNat * 2 ^ n % 65536 := by
  rw [scalarShiftLeft_eq_shiftLeft, BitVec.toNat_shiftLeft, Nat.shiftLeft_eq]

theorem toInt_scalarShiftRight (x : Half) (n : Nat) : (scalarShiftRight x n).toInt = x.toInt / 2 ^ n := by
  rw [scalarShiftRight_eq_sshiftRight, toInt_sshiftRight_eq_ediv]

theorem exec_sshl_result (s : State) (d a : SReg) (count : Half) :
    ScalarResult (.sshl d a count) s d fun w =>
      w.toNat = if d = 0 then 0 else (s.readS a).toNat * 2 ^ count.toNat % 65536 :=
  scalarResult_of_writeSNext BitVec.toNat rfl rfl (toNat_scalarShiftLeft _ _)

theorem exec_sasr_result (s : State) (d a : SReg) (count : Half) :
    ScalarResult (.sasr d a count) s d fun w => w.toInt = if d = 0 then 0 else (s.readS a).toInt / 2 ^ count.toNat :=
  scalarResult_of_writeSNext BitVec.toInt rfl rfl (toInt_scalarShiftRight _ _)

/-- Settles O40: a shift of a 16-bit vector by any count is the product modulo 2^16, or the quotient rounded down. -/
theorem scalarShiftResults : Obligations.ScalarShiftResults :=
  fun s d a count => ⟨exec_sshl_result s d a count, exec_sasr_result s d a count⟩

/-! ### The source's loops -/

theorem doublingLoop_eq_shiftLeft (n : Nat) (x : Half) : doublingLoop n x = x <<< n := by
  induction n generalizing x with
  | zero => exact (BitVec.shiftLeft_zero x).symm
  | succ n ih =>
    have hdouble : BitVec.ofNat 16 (2 * x.toNat) = x <<< 1 := by rw [Nat.mul_comm, ← ofNat_mul_two_pow, pow_one]
    rw [doublingLoop, ih, hdouble, ← BitVec.shiftLeft_add, Nat.add_comm]

/-- R258's halving rounds down, and -1 is where floor halving stays. -/
theorem halvingLoop_eq_ediv (n : Nat) (v : Int) : halvingLoop n v = v / 2 ^ n := by
  induction n generalizing v with
  | zero => rw [halvingLoop, pow_zero, Int.ediv_one]
  | succ n ih =>
    rw [halvingLoop]
    split
    next hstop =>
      subst hstop
      exact (Int.ediv_eq_neg_one_of_neg_of_le (by decide) (one_le_pow₀ one_le_two)).symm
    next =>
      have hhalf : (if v ≥ 0 then v / 2 else -((-v + 1) / 2)) = v / 2 := by omega
      rw [hhalf, ih, Int.ediv_ediv_of_nonneg (by decide), pow_succ']

/-- Settles O41: both sides of each equation are the same shift of a bit vector. -/
theorem shiftLoopsAgree : Obligations.ShiftLoopsAgree := by
  intro x n
  constructor
  · rw [scalarShiftLeft_eq_shiftLeft, doublingLoop_eq_shiftLeft]
  · rw [scalarShiftRight_eq_sshiftRight, halvingLoop_eq_ediv, ofInt_ediv_two_pow]

end Sys2Proof.Machine
end

section
/-! SUPPORT. Loads and stores (47_memory_ops.md R270 to R274): the bytes that a load puts in its register (O42) and those that a store puts
in DMEM (O43), and BADADDR where the access leaves DMEM. -/

namespace Sys2Proof.Machine

variable {s : State} {a : SReg} {simm : Half}

/-! ### Accesses out of bounds -/

theorem State.storeNext_of_outside {ea : Half} {n : Nat} (h : s.params.dmemBytes < ea.toNat + n) (v : Nat) :
    s.storeNext ea n v = .next (s.raiseFault .badAddr (ea.zeroExtend 32)) := by
  rcases s.storeNext_cases ea n v with ⟨hin, -⟩ | ⟨-, e⟩
  · omega
  · exact e

theorem exec_ldw_of_outside (d : WReg) (h : s.params.dmemBytes < (s.effAddr a simm).toNat + s.params.wideBytes) :
    exec (.ldw d a simm) s = .next (s.raiseFault .badAddr ((s.effAddr a simm).zeroExtend 32)) := by
  rcases execLdw_cases s d a simm with ⟨hin, -⟩ | ⟨-, e⟩
  · omega
  · exact e

theorem exec_lds_of_outside (d : SReg) (h : s.params.dmemBytes < (s.effAddr a simm).toNat + 2) :
    exec (.lds d a simm) s = .next (s.raiseFault .badAddr ((s.effAddr a simm).zeroExtend 32)) := by
  rcases execLds_cases s d a simm with ⟨hin, -⟩ | ⟨-, e⟩
  · omega
  · exact e

/-! ### Loads -/

/-- A wide access reads a W-bit pattern, which fits the register's cell whole. -/
theorem State.toNat_ofNat_dmemValue (hp : s.params.legal = true) (ea : Nat) :
    (BitVec.ofNat 128 (s.dmemValue ea s.params.wideBytes)).toNat = s.dmemValue ea s.params.wideBytes ∧
    s.dmemValue ea s.params.wideBytes < 2 ^ s.params.W := by
  obtain ⟨-, -, hW⟩ := Params.legal_wideBytes hp
  have hlt := s.dmemValue_lt ea s.params.wideBytes
  rw [Params.pow_wideBytes hp] at hlt
  exact ⟨Nat.mod_eq_of_lt (hlt.trans_le (Nat.pow_le_pow_right (by decide) hW)), hlt⟩

/-- Two bytes make a halfword, the lower address less significant (20_memory.md R74). -/
theorem State.ofNat_dmemValue_two_eq_append (s : State) (ea : Nat) :
    BitVec.ofNat 16 (s.dmemValue ea 2) = s.dmemByte (ea + 1) ++ s.dmemByte ea := by
  apply BitVec.eq_of_toNat_eq
  have hlow := (s.dmemByte ea).isLt
  have hhigh := (s.dmemByte (ea + 1)).isLt
  rw [BitVec.toNat_append, ← Nat.shiftLeft_add_eq_or_of_lt hlow, Nat.shiftLeft_eq]
  simp only [State.dmemValue, State.dmemBytes, bytesValue, BitVec.toNat_ofNat]
  omega

theorem exec_ldw_result (hp : s.params.legal = true) (d : WReg)
    (h : (s.effAddr a simm).toNat + s.params.wideBytes ≤ s.params.dmemBytes) :
    WideResult (.ldw d a simm) s d fun w =>
      ∀ j < s.params.wideBytes, wideByte w j = s.dmemByte ((s.effAddr a simm).toNat + j) := by
  obtain ⟨hcell, hlt⟩ := State.toNat_ofNat_dmemValue hp (s.effAddr a simm).toNat
  rcases execLdw_cases s d a simm with ⟨-, e⟩ | ⟨hout, -⟩
  · refine wideResult_of_writeWNext (x := BitVec.ofNat 128 (s.dmemValue _ _)) e (hcell.trans_lt hlt) fun j hj => ?_
    rw [wideByte, hcell, s.byte_dmemValue hj]
  · omega

theorem exec_lds_result (d : SReg) (h : (s.effAddr a simm).toNat + 2 ≤ s.params.dmemBytes) :
    ScalarResult (.lds d a simm) s d fun w => w =
      if d = 0 then 0 else s.dmemByte ((s.effAddr a simm).toNat + 1) ++ s.dmemByte (s.effAddr a simm).toNat := by
  rcases execLds_cases s d a simm with ⟨-, e⟩ | ⟨hout, -⟩
  · exact scalarResult_of_writeSNext id e rfl (s.ofNat_dmemValue_two_eq_append _)
  · omega

/-- Settles O42: in bounds the register gets the access's bytes, and out of bounds BADADDR is raised. -/
theorem loadResults : Obligations.LoadResults :=
  fun _ d _ _ hp => ⟨exec_ldw_result hp d, exec_ldw_of_outside d, exec_lds_result d, exec_lds_of_outside d⟩

/-! ### Stores -/

theorem State.stored_onlyBytes (s : State) (ea n v : Nat) : s.OnlyBytes (s.stored ea n v) ea n := by
  refine ⟨?_, fun b hb => ?_⟩
  · rw [State.stored, s.dmemPutBytes_frame ea (valueBytes n v)]
    rfl
  · exact s.dmemByte_dmemPutBytes_outside ea _ b (by rwa [length_valueBytes])

theorem State.dmemByte_stored (s : State) (ea v : Nat) {n j : Nat} (h : j < n) :
    (s.stored ea n v).dmemByte (ea + j) = BitVec.ofNat 8 (v / 2 ^ (8 * j)) :=
  s.dmemByte_dmemPutBytes_value ea v h

theorem State.append_dmemByte_stored (s : State) (ea : Nat) (v : Half) :
    (s.stored ea 2 v.toNat).dmemByte (ea + 1) ++ (s.stored ea 2 v.toNat).dmemByte ea = v := by
  rw [← State.ofNat_dmemValue_two_eq_append, State.stored_dmemValue, Nat.mod_eq_of_lt (b := 256 ^ 2) v.isLt,
    BitVec.ofNat_toNat, BitVec.setWidth_eq]

/-- Settles O43: in bounds the register's bytes are stored, and out of bounds BADADDR is raised and nothing is stored. -/
theorem storeResults : Obligations.StoreResults :=
  fun s d a simm _ =>
    let ea := (s.effAddr a simm).toNat
    ⟨fun h => ⟨_, exec_stw_of_inside d h, s.stored_onlyBytes ea _ _, fun _ hj => s.dmemByte_stored ea _ hj⟩,
      fun h => State.storeNext_of_outside h _,
      fun h => ⟨_, exec_sts_of_inside d h, s.stored_onlyBytes ea _ _, s.append_dmemByte_stored ea _⟩,
      fun h => State.storeNext_of_outside h _⟩

end Sys2Proof.Machine
end

section
/-! SUPPORT. The instructions of 48_control.md: HALT, NOP and BRK (O18), the jumps (O19) and the conditional branches (O20). -/

namespace Sys2Proof.Machine

/-! ### System instructions -/

/-- Settles O18: the end of a run, the next instruction, and the fault BREAK with its code of R321. -/
theorem systemInstructionResults : Obligations.SystemInstructionResults := by
  intro s code
  have hhalt : exec .halt s = .next s.halt := rfl
  have hnop : exec .nop s = .next s.advance := rfl
  have hbrk : exec (.brk code) s = .next (s.raiseFault .brk (code.zeroExtend 32)) := rfl
  exact ⟨hhalt, hnop, hbrk⟩

/-! ### Jumps -/

/-- A pc-relative target is the sum modulo 2^16 (R291). -/
theorem State.toNat_branchTarget (s : State) (simm : Half) :
    ((s.branchTarget simm).toNat : Int) = (s.pc.toNat + simm.toInt) % 65536 := natCast_toNat_ofInt_half _

theorem State.onlyScalar_writeS_jump (s : State) (d : SReg) (v target : Half) : s.OnlyScalar ((s.writeS d v).jump target) d := by
  obtain ⟨-, hother⟩ := s.onlyScalar_writeS_advance d v
  refine ⟨?_, hother⟩
  rw [s.writeS_frame d v]
  rfl

theorem exec_jal_result (s : State) (d : SReg) (simm : Half) :
    ∃ t, exec (.jal d simm) s = .next t ∧ s.OnlyScalar t d ∧ (t.pc.toNat : Int) = (s.pc.toNat + simm.toInt) % 65536 ∧
      (t.readS d).toNat = if d = 0 then 0 else (s.pc.toNat + 1) % 65536 := by
  refine ⟨_, rfl, s.onlyScalar_writeS_jump d _ _, s.toNat_branchTarget simm, ?_⟩
  rw [State.readS_jump, State.readS_writeS, if_pos rfl, apply_ite BitVec.toNat, BitVec.toNat_add]
  rfl

/-- Settles O19: BRA and JR write pc alone, and JAL also the link. -/
theorem jumpResults : Obligations.JumpResults :=
  fun s simm d _ => ⟨⟨_, rfl, rfl, s.toNat_branchTarget simm⟩, exec_jal_result s d simm, ⟨_, rfl, rfl⟩⟩

/-! ### Conditional branches -/

/-- A branch whose condition says `p` of the flags ends at its target if `p`, and at the next instruction if not (R292). -/
theorem next_branchIf_eq_ite (s : State) (simm : Half) {c : Cond} {p : Prop} [Decidable p] (hc : c.holds s.z s.n = true ↔ p) :
    (.next (s.branchIf c simm) : Host.Outcome State Fault Refusal) =
      .next (if p then s.jump (s.branchTarget simm) else s.advance) :=
  congrArg _ (if_congr hc rfl rfl)

/-- Settles O20: each condition, read from its row of the table of R292. -/
theorem conditionalBranchResults : Obligations.ConditionalBranchResults := by
  intro s simm
  have hne : Cond.ne.holds s.z s.n = true ↔ s.z = false := by simp [Cond.holds]
  have hge : Cond.ge.holds s.z s.n = true ↔ s.n = false := by simp [Cond.holds]
  have hgt : Cond.gt.holds s.z s.n = true ↔ s.z = false ∧ s.n = false := by simp [Cond.holds]
  have hle : Cond.le.holds s.z s.n = true ↔ s.z = true ∨ s.n = true := by simp [Cond.holds]
  exact ⟨next_branchIf_eq_ite s simm (c := .eq) Iff.rfl, next_branchIf_eq_ite s simm hne, next_branchIf_eq_ite s simm (c := .lt) Iff.rfl,
    next_branchIf_eq_ite s simm hge, next_branchIf_eq_ite s simm hgt, next_branchIf_eq_ite s simm hle⟩

end Sys2Proof.Machine
end

section
/-! SUPPORT. The step (48_control.md R299, 60_exceptions.md R323, R335, R336, R346): it always answers (O10), runs the decoded instruction (O7)
or raises the fetch's fault (O8), and while idle waits (O9); and what the end of an instruction says of STATUS (O11, O17). -/

namespace Sys2Proof.Machine

variable {i : Instr} {s t : State}

/-! ### The outside's turn -/

theorem State.hostTurn_of_empty (h : s.hostQueue = []) : s.hostTurn = s := by
  simp [State.hostTurn, h]

theorem State.hostTurn_of_cons {e : HostEvent} {rest : List HostEvent} (h : s.hostQueue = e :: rest) :
    s.hostTurn = { s with hostQueue := rest }.hostEvent e := by
  simp [State.hostTurn, h]

/-- What a host read returns does not depend on what else waits outside. -/
theorem State.hostRead_hostQueue (s : State) (rest : List HostEvent) (offset : BitVec 20) :
    { s with hostQueue := rest }.hostRead offset = s.hostRead offset := by
  unfold State.hostRead
  cases windowTarget s.params offset with
  | control r => cases r <;> rfl
  | scalar | wide | imem | dmem | reserved => rfl

/-! ### The step of a legal engine -/

theorem step_of_busy (hp : s.params.legal = true) (hbusy : s.busy = true) (h : engineStep s = .next t) :
    step s = .next t.hostTurn := by
  obtain ⟨hwidth, hsizes⟩ : s.params.widthLegal = true ∧ s.params.sizesLegal = true := by simpa [Params.legal] using hp
  simp [step, hwidth, hsizes, hbusy, h, afterEngine]

theorem step_of_idle (hp : s.params.legal = true) (hidle : s.busy = false) : step s = .next s.hostTurn := by
  obtain ⟨hwidth, hsizes⟩ : s.params.widthLegal = true ∧ s.params.sizesLegal = true := by simpa [Params.legal] using hp
  simp [step, hwidth, hsizes, hidle]

theorem engineStep_of_ok (h : s.fetchDecode = .ok i) : engineStep s = exec i s := by simp [engineStep, h]

theorem engineStep_of_error {c : Cause} {info : Word} (h : s.fetchDecode = .error (c, info)) :
    engineStep s = .next (s.raiseFault c info) := by simp [engineStep, h]

theorem exists_engineStep_eq_next (s : State) : ∃ t, engineStep s = .next t := by
  cases hf : s.fetchDecode with
  | ok i =>
    obtain ⟨t, ht, -⟩ := exec_endsNext i s
    exact ⟨t, (engineStep_of_ok hf).trans ht⟩
  | error f => exact ⟨_, engineStep_of_error hf⟩

/-- Settles O10: the sequencer's step answers whatever it fetches, and the outside's turn is a function. -/
theorem stepAlwaysAnswersNext : Obligations.StepAlwaysAnswersNext := by
  intro s hp
  cases hbusy : s.busy with
  | true =>
    obtain ⟨t, ht⟩ := exists_engineStep_eq_next s
    exact ⟨_, step_of_busy hp hbusy ht⟩
  | false => exact ⟨_, step_of_idle hp hbusy⟩

/-! ### What a run's step fetches -/

theorem State.fetchDecode_of_decode (hpc : s.pc.toNat < s.params.imemWords)
    (hdec : decode s.params.N (s.imemWord s.pc.toNat) = .ok i) : s.fetchDecode = .ok i := by
  rw [State.fetchDecode, if_neg (by omega), hdec]

theorem State.fetchDecode_of_outside (hpc : s.params.imemWords ≤ s.pc.toNat) :
    s.fetchDecode = .error (.badPC, s.pc.zeroExtend 32) := if_pos hpc

theorem State.fetchDecode_of_illegal (hpc : s.pc.toNat < s.params.imemWords)
    (hdec : ∀ i, decode s.params.N (s.imemWord s.pc.toNat) ≠ .ok i) :
    s.fetchDecode = .error (.illegal, s.imemWord s.pc.toNat) := by
  rcases s.fetchDecode_cases with ⟨hout, -⟩ | ⟨-, -, e⟩ | ⟨-, i, hok, -⟩
  · omega
  · exact e
  · exact absurd hok (hdec i)

/-- Settles O7: the fetch inside IMEM gives the decoded instruction, and the outside's turn is last. -/
theorem stepRunsDecodedInstruction : Obligations.StepRunsDecodedInstruction := by
  intro s t i hp hbusy hpc hdec hexec
  have hstep := step_of_busy hp hbusy ((engineStep_of_ok (State.fetchDecode_of_decode hpc hdec)).trans hexec)
  exact ⟨hstep, fun hq => hstep.trans (congrArg _ (State.hostTurn_of_empty hq))⟩

/-- Settles O8: pc is checked before the word is decoded. -/
theorem stepFetchFaults : Obligations.StepFetchFaults :=
  fun _ hp hbusy =>
    ⟨fun hpc => step_of_busy hp hbusy (engineStep_of_error (State.fetchDecode_of_outside hpc)),
      fun hpc hdec => step_of_busy hp hbusy (engineStep_of_error (State.fetchDecode_of_illegal hpc hdec))⟩

/-- Settles O9: the idle step is the outside's turn, and that turn is the first event that waits. -/
theorem idleEngineWaits : Obligations.IdleEngineWaits := by
  refine ⟨fun s hp hidle => ?_, fun s rest offset data => ?_⟩
  · have hstep := step_of_idle hp hidle
    exact ⟨hstep, fun hq => hstep.trans (congrArg _ (State.hostTurn_of_empty hq))⟩
  · refine ⟨State.hostTurn_of_empty, State.hostTurn_of_cons, fun hq => ?_, State.hostTurn_of_cons, State.hostTurn_of_cons⟩
    rw [State.hostTurn_of_cons hq, State.hostEvent, State.hostRead_hostQueue]

/-! ### Faults -/

/-- Of the ends of an instruction only the fault sets STATUS.FAULT. -/
theorem InstrEnd.eq_raiseFault (h : InstrEnd i s t) (hs : s.faulted = false) (ht : t.faulted = true) :
    ∃ c info, t = s.raiseFault c info := by
  cases h with
  | fault c info => exact ⟨c, info, rfl⟩
  | wide | flags | jump | halt => cases hs.symm.trans ht
  | scalar d v target => cases hs.symm.trans ((s.writeS_faulted d v).symm.trans ht)
  | store a bytes => cases hs.symm.trans ((s.dmemPutBytes_faulted a bytes).symm.trans ht)

/-- Settles O11: the fetch's and the decoder's faults, and the end of an instruction that faults, are all the one fault entry. -/
theorem faultEntryIsPrecise : Obligations.FaultEntryIsPrecise := by
  intro s t hs hstep ht
  rcases engineStep_cases hstep with ⟨i, -, hexec⟩ | ⟨c, info, -, rfl⟩
  · exact (instrEnd_of_exec hexec).eq_raiseFault hs ht
  · exact ⟨c, info, rfl⟩

/-- Settles O17: of the ends of an instruction only HALT's and the fault's write STATUS or a FAULT_* register. -/
theorem runEndsOnlyAtHaltOrFault : Obligations.RunEndsOnlyAtHaltOrFault := by
  intro i s t _ hexec ht hi
  cases instrEnd_of_exec hexec with
  | wide | flags | jump => exact ⟨rfl, rfl, rfl, rfl, rfl, rfl⟩
  | scalar | store => simp
  | halt isHalt => exact absurd isHalt hi
  | fault => cases ht

/-- The shift FB fits its 8-bit field: SL < N, so FB < W (00_scope.md R7). -/
theorem Params.legal_FB {p : Params} (h : p.legal = true) : p.FB < 128 := by
  obtain ⟨⟨⟨⟨⟨hLB, -⟩, -⟩, hW⟩, -⟩, ⟨⟨⟨⟨⟨⟨hSL, -⟩, -⟩, -⟩, -⟩, -⟩, -⟩, -⟩ := Params.legal_iff.1 h
  rw [Params.FB]
  rcases hLB with hLB | hLB <;> rw [hLB] at hW ⊢ <;> omega

/-- Settles O12: the register numbers and the shift are below 2 to the width of their fields. -/
theorem arithmeticFaultInfoLayout : Obligations.ArithmeticFaultInfoLayout := by
  intro d a b p hp
  have hFB := Params.legal_FB hp
  simp only [bits, arithInfo, BitVec.toNat_ofNat]
  omega

end Sys2Proof.Machine
end

section
/-! SUPPORT. Resets, the start and the end of runs, and the interrupt output (60_exceptions.md R336 to R340, 70_reset_and_hazards.md R360 to
R363): O45, O48, O50, O57, O58 and O59. -/

namespace Sys2Proof.Machine

variable {s t : State} {data : Word}

/-! ### Resets -/

theorem State.readW_eq_zero (h : s.wide = Vector.replicate 8 0) (i : WReg) : s.readW i = 0 := by
  simp [State.readW, h, Vector.get_eq_getElem, truncW]

theorem State.readS_eq_zero (h : s.scalar = Vector.replicate 8 0) (i : SReg) : s.readS i = 0 := by
  simp [State.readS, h, Vector.get_eq_getElem]

@[simp] theorem State.readW_softReset (s : State) (i : WReg) : s.softReset.readW i = 0 := State.readW_eq_zero rfl i

@[simp] theorem State.readS_softReset (s : State) (i : SReg) : s.softReset.readS i = 0 := State.readS_eq_zero rfl i

/-- The machine at reset is the hardware reset of itself. -/
theorem State.hardReset_reset : State.reset.hardReset = State.reset := rfl

/-- Settles O48: State.reset is its own hardware reset, so both cases are the hardware reset of `s`. -/
theorem hardwareResetState : Obligations.HardwareResetState := by
  rintro s t h
  obtain rfl : t = s.hardReset := by
    rcases h with h | ⟨rfl, rfl⟩
    · exact h
    · exact State.hardReset_reset.symm
  exact ⟨State.readW_eq_zero rfl, State.readS_eq_zero rfl, rfl, rfl, rfl, rfl, rfl, rfl, rfl, rfl, rfl, rfl, rfl, rfl, rfl, rfl,
    fun _ => rfl, fun _ => rfl⟩

/-- Settles O45: the registers and the status are those of a reset, and the memories list nothing. -/
theorem resetMeetsInvariant : Obligations.ResetMeetsInvariant where
  params_legal := by decide
  status := ⟨nofun, nofun⟩
  irq := nofun
  fault := ⟨rfl, rfl, rfl⟩
  flags := nofun
  wide := fun r => by simp [State.reset, Vector.get_eq_getElem]
  scalar_zero := rfl
  memory := ⟨rfl, rfl, rfl, rfl⟩

/-! ### Writes of CTRL and STATUS -/

/-- START alone begins a run of an idle engine (10_state.md R53). -/
theorem State.writeCtrl_of_start (h1 : data.getLsbD 1 = false) (h0 : data.getLsbD 0 = true) (hidle : s.busy = false) :
    s.writeCtrl data = { s with irqEn := data.getLsbD 2 }.start := by
  rcases s.writeCtrl_cases data with ⟨sreset, -⟩ | ⟨-, -, -, e⟩ | ⟨-, noStart | hbusy, -⟩
  · cases h1.symm.trans sreset
  · exact e
  · cases h0.symm.trans noStart
  · cases hidle.symm.trans hbusy

/-- Settles O50: START is read while idle, and a run ignores it. -/
theorem startByHost : Obligations.StartByHost := by
  intro s data h1 h0
  rw [s.hostWrite_ctrl]
  exact ⟨State.writeCtrl_of_start h1 h0, fun hbusy => s.writeCtrl_of_plain h1 (.inr hbusy)⟩

theorem State.writeStatus_of_keep (s : State) (h3 : data.getLsbD 3 = false) : s.writeStatus data = s :=
  if_neg (Bool.eq_false_iff.1 h3)

/-- Settles O57: the ends of a run set the bit, STATUS's bit 3, a start and a reset clear it, and IRQ_EN only masks the line. -/
theorem interruptOutput : Obligations.InterruptOutput := by
  intro s data c info
  refine ⟨by simp [State.irqLine], rfl, rfl, fun h3 => ?_, fun h3 => ?_, fun h1 h0 => ?_, rfl, rfl, rfl⟩
  · rw [s.hostWrite_status, s.writeStatus_of_clear h3]
  · rw [s.hostWrite_status, s.writeStatus_of_keep h3]
  · rw [s.hostWrite_ctrl, s.writeCtrl_of_plain h1 (.inl h0)]
    exact ⟨rfl, rfl⟩

/-! ### A soft reset during a step -/

theorem engineStep_hostQueue (h : engineStep s = .next t) : t.hostQueue = s.hostQueue := by
  rcases engineStep_cases h with ⟨i, -, hexec⟩ | ⟨c, info, -, rfl⟩
  · obtain ⟨-, -, -, hqueue, -⟩ := (instrEnd_of_exec hexec).hostState_eq
    exact hqueue
  · rfl

/-- Settles O58: the outside's turn after the aborted step is a soft reset of the state that the step left. -/
theorem sresetAbortsRun : Obligations.SresetAbortsRun := by
  intro s t u data rest hp hbusy hqueue h1 ht hu
  have hreset : t.hostTurn = { t with hostQueue := rest, irqEn := data.getLsbD 2 }.softReset := by
    rw [State.hostTurn_of_cons ((engineStep_hostQueue ht).trans hqueue), State.hostEvent, State.hostWrite_ctrl,
      State.writeCtrl_of_sreset _ h1]
  obtain rfl : t.hostTurn = u := by simpa using (step_of_busy hp hbusy ht).symm.trans hu
  rw [hreset]
  exact ⟨rfl, rfl, rfl, rfl, rfl, rfl, rfl, rfl, State.readW_softReset _, State.readS_softReset _, fun _ => rfl, rfl⟩

/-! ### The next run -/

/-- The host writes START_PC and then CTRL with START alone: an idle engine runs from the index written (R362). -/
theorem State.restart_at (hidle : s.busy = false) (target : Half) :
    (s.hostWrite 0x18 (target.zeroExtend 32)).hostWrite 0x10 1 = { s with startPC := target, irqEn := false }.start := by
  have hcut : (target.zeroExtend 32).setWidth 16 = target := by simp
  rw [s.hostWrite_startPC, State.writeIdle_of_idle hidle, State.hostWrite_ctrl, hcut]
  exact State.writeCtrl_of_start (by decide) (by decide) hidle

/-- Settles O59: a fault leaves the engine idle, its FAULT_PC at the faulting instruction, and the rest as it was; a start keeps the rest. -/
theorem resumeAfterFault : Obligations.ResumeAfterFault := by
  intro s c info skip f target r
  have hr : r = { f with startPC := target, irqEn := false }.start := State.restart_at rfl target
  rw [hr]
  exact ⟨rfl, rfl, rfl, rfl, rfl, rfl, rfl, rfl, rfl, rfl, fun _ => rfl, fun _ => rfl, fun _ => rfl, fun _ => rfl⟩

end Sys2Proof.Machine
end
